-- ==== Sys2Proof/Word.lean ====
section
/-!
DEFINITION. The word types of the lveez CHIP-8 core (spec/00_scope.md R7, R10, R11): every value is an
unsigned bit vector, and the exact sums the spec writes are taken on natural numbers.
-/

namespace Sys2Proof

/-- A memory byte or a general register (10_state.md R31, 20_memory.md R80). -/
abbrev Byte := BitVec 8

/-- A 16-bit quantity: an instruction word, PC, I, a return address (00_scope.md R7). -/
abbrev Word := BitVec 16

/-- A 4-bit field: a register index x or y, or Dxyn's row count n (30_encoding.md R122). -/
abbrev Nibble := BitVec 4

/-- A 12-bit address field nnn (30_encoding.md R122). -/
abbrev Addr12 := BitVec 12

/-- Memory size N (00_scope.md R7); addresses at or above it are illegal (20_memory.md R81). -/
@[simp] abbrev memorySize : Nat := 0x1000

/-- The number of bytes of the font ROM, addresses 0x000 to 0x04F (20_memory.md R83). -/
@[simp] abbrev fontSize : Nat := 0x50

/-- Where a program image is placed (20_memory.md R110). -/
@[simp] abbrev loadBase : Nat := 0x200

/-- The largest image, memory size less the load base: 3584 bytes (00_scope.md R7, 20_memory.md R111). -/
@[simp] abbrev maxImage : Nat := 0xE00

/-- The flag register's number: VF is V[15] (10_state.md R31, R33). -/
abbrev vf : Nibble := 0xF#4

end Sys2Proof
end

