-- ==== Sys2Proof/Syntax.lean ====
section
/-!
DEFINITION. The 34 instructions (30_encoding.md R135), one constructor per row of spec/opcode_table.json, in the
table's order. Every operand has the width of its field (30_encoding.md R122), so no term of Instr is ill-formed.
A word that is no instruction (UNKNOWN, 30_encoding.md R141) is no constructor: the decoder rejects it by name
and the step reports it.
-/

namespace Sys2Proof

/-- An instruction with its operand fields (30_encoding.md R123). -/
inductive Instr where
  /-- 00E0 `CLS` (43_display.md R260). -/
  | cls
  /-- 00EE `RET` (40_control_flow.md R160). -/
  | ret
  /-- 1nnn `JP nnn` (40_control_flow.md R163). -/
  | jp (nnn : Addr12)
  /-- 2nnn `CALL nnn` (40_control_flow.md R166). -/
  | call (nnn : Addr12)
  /-- 3xnn `SE Vx, nn` (40_control_flow.md R170). -/
  | seImm (x : Nibble) (nn : Byte)
  /-- 4xnn `SNE Vx, nn` (40_control_flow.md R173). -/
  | sneImm (x : Nibble) (nn : Byte)
  /-- 5xy0 `SE Vx, Vy` (40_control_flow.md R176). -/
  | seReg (x y : Nibble)
  /-- 6xnn `LD Vx, nn` (41_alu.md R190). -/
  | ldImm (x : Nibble) (nn : Byte)
  /-- 7xnn `ADD Vx, nn` (41_alu.md R192). -/
  | addImm (x : Nibble) (nn : Byte)
  /-- 8xy0 `LD Vx, Vy` (41_alu.md R195). -/
  | ldReg (x y : Nibble)
  /-- 8xy1 `OR Vx, Vy` (41_alu.md R197). -/
  | orReg (x y : Nibble)
  /-- 8xy2 `AND Vx, Vy` (41_alu.md R198). -/
  | andReg (x y : Nibble)
  /-- 8xy3 `XOR Vx, Vy` (41_alu.md R199). -/
  | xorReg (x y : Nibble)
  /-- 8xy4 `ADD Vx, Vy` (41_alu.md R201). -/
  | addReg (x y : Nibble)
  /-- 8xy5 `SUB Vx, Vy` (41_alu.md R203). -/
  | subReg (x y : Nibble)
  /-- 8xy6 `SHR Vx, Vy` (41_alu.md R208). -/
  | shr (x y : Nibble)
  /-- 8xy7 `SUBN Vx, Vy` (41_alu.md R205). -/
  | subnReg (x y : Nibble)
  /-- 8xyE `SHL Vx, Vy` (41_alu.md R211). -/
  | shl (x y : Nibble)
  /-- 9xy0 `SNE Vx, Vy` (40_control_flow.md R179). -/
  | sneReg (x y : Nibble)
  /-- Annn `LD I, nnn` (42_index_memory.md R230). -/
  | ldI (nnn : Addr12)
  /-- Bnnn `JP V0, nnn` (40_control_flow.md R186). -/
  | jpV0 (nnn : Addr12)
  /-- Cxnn `RND Vx, nn` (41_alu.md R215). -/
  | rnd (x : Nibble) (nn : Byte)
  /-- Dxyn `DRW Vx, Vy, n` (43_display.md R263). -/
  | drw (x y n : Nibble)
  /-- Ex9E `SKP Vx` (44_keypad_timers.md R280). -/
  | skp (x : Nibble)
  /-- ExA1 `SKNP Vx` (44_keypad_timers.md R283). -/
  | sknp (x : Nibble)
  /-- Fx07 `LD Vx, DT` (44_keypad_timers.md R290). -/
  | ldVxDt (x : Nibble)
  /-- Fx0A `LD Vx, K` (44_keypad_timers.md R286). -/
  | ldVxK (x : Nibble)
  /-- Fx15 `LD DT, Vx` (44_keypad_timers.md R292). -/
  | ldDtVx (x : Nibble)
  /-- Fx18 `LD ST, Vx` (44_keypad_timers.md R294). -/
  | ldStVx (x : Nibble)
  /-- Fx1E `ADD I, Vx` (42_index_memory.md R232). -/
  | addI (x : Nibble)
  /-- Fx29 `LD F, Vx` (42_index_memory.md R236). -/
  | ldF (x : Nibble)
  /-- Fx33 `LD B, Vx` (42_index_memory.md R240). -/
  | ldB (x : Nibble)
  /-- Fx55 `LD [I], Vx` (42_index_memory.md R250). -/
  | storeRegs (x : Nibble)
  /-- Fx65 `LD Vx, [I]` (42_index_memory.md R253). -/
  | loadRegs (x : Nibble)
  deriving DecidableEq, Repr

end Sys2Proof
end

