-- ==== Sys2Proof/Decode.lean ====
section
/-!
DEFINITION. The decoder, total on words and on bytes (30_encoding.md R120-R143), and the encoder after it, both from the
spec's opcode map. Decoding is strict: a word that fits no row is UNKNOWN and is rejected by name.
-/

namespace Sys2Proof

/-- Why bytes are no instruction. -/
inductive DecodeError where
  /-- UNKNOWN: no row of the opcode map fits the word (30_encoding.md R136-R141, log entry 8). -/
  | unknown (w : Word)
  /-- Fewer than the two bytes of an instruction word (30_encoding.md R120). -/
  | truncated
  deriving DecidableEq, Repr

/-- The opcode family w[15:12] (30_encoding.md R121). -/
def fieldFamily (w : Word) : Nibble := w.extractLsb' 12 4

/-- x = w[11:8] (30_encoding.md R122). -/
def fieldX (w : Word) : Nibble := w.extractLsb' 8 4

/-- y = w[7:4] (30_encoding.md R122). -/
def fieldY (w : Word) : Nibble := w.extractLsb' 4 4

/-- n = w[3:0] (30_encoding.md R122). -/
def fieldN (w : Word) : Nibble := w.extractLsb' 0 4

/-- nn = w[7:0] (30_encoding.md R122). -/
def fieldNN (w : Word) : Byte := w.extractLsb' 0 8

/-- nnn = w[11:0] (30_encoding.md R122). -/
def fieldNNN (w : Word) : Addr12 := w.extractLsb' 0 12

/-- Family 0: only the exact words 00E0 and 00EE (30_encoding.md R136). -/
def decodeFamily0 (w : Word) : Except DecodeError Instr :=
  if w = 0x00E0#16 then .ok .cls
  else if w = 0x00EE#16 then .ok .ret
  else .error (.unknown w)

/-- Family 8: nine values of w[3:0] (30_encoding.md R138). -/
def decodeFamily8 (w : Word) : Except DecodeError Instr :=
  let x := fieldX w
  let y := fieldY w
  let n := fieldN w
  if n = 0x0#4 then .ok (.ldReg x y)
  else if n = 0x1#4 then .ok (.orReg x y)
  else if n = 0x2#4 then .ok (.andReg x y)
  else if n = 0x3#4 then .ok (.xorReg x y)
  else if n = 0x4#4 then .ok (.addReg x y)
  else if n = 0x5#4 then .ok (.subReg x y)
  else if n = 0x6#4 then .ok (.shr x y)
  else if n = 0x7#4 then .ok (.subnReg x y)
  else if n = 0xE#4 then .ok (.shl x y)
  else .error (.unknown w)

/-- Family E: low byte 9E or A1 (30_encoding.md R139). -/
def decodeFamilyE (w : Word) : Except DecodeError Instr :=
  let x := fieldX w
  let nn := fieldNN w
  if nn = 0x9E#8 then .ok (.skp x)
  else if nn = 0xA1#8 then .ok (.sknp x)
  else .error (.unknown w)

/-- Family F: nine values of the low byte (30_encoding.md R140). -/
def decodeFamilyF (w : Word) : Except DecodeError Instr :=
  let x := fieldX w
  let nn := fieldNN w
  if nn = 0x07#8 then .ok (.ldVxDt x)
  else if nn = 0x0A#8 then .ok (.ldVxK x)
  else if nn = 0x15#8 then .ok (.ldDtVx x)
  else if nn = 0x18#8 then .ok (.ldStVx x)
  else if nn = 0x1E#8 then .ok (.addI x)
  else if nn = 0x29#8 then .ok (.ldF x)
  else if nn = 0x33#8 then .ok (.ldB x)
  else if nn = 0x55#8 then .ok (.storeRegs x)
  else if nn = 0x65#8 then .ok (.loadRegs x)
  else .error (.unknown w)

/-- The decoder: one word, one instruction or UNKNOWN (30_encoding.md R133, R135). -/
def decodeWord (w : Word) : Except DecodeError Instr :=
  let f := fieldFamily w
  let x := fieldX w
  let y := fieldY w
  let n := fieldN w
  let nn := fieldNN w
  let nnn := fieldNNN w
  if f = 0x0#4 then decodeFamily0 w
  else if f = 0x1#4 then .ok (.jp nnn)
  else if f = 0x2#4 then .ok (.call nnn)
  else if f = 0x3#4 then .ok (.seImm x nn)
  else if f = 0x4#4 then .ok (.sneImm x nn)
  else if f = 0x5#4 then (if n = 0x0#4 then .ok (.seReg x y) else .error (.unknown w))
  else if f = 0x6#4 then .ok (.ldImm x nn)
  else if f = 0x7#4 then .ok (.addImm x nn)
  else if f = 0x8#4 then decodeFamily8 w
  else if f = 0x9#4 then (if n = 0x0#4 then .ok (.sneReg x y) else .error (.unknown w))
  else if f = 0xA#4 then .ok (.ldI nnn)
  else if f = 0xB#4 then .ok (.jpV0 nnn)
  else if f = 0xC#4 then .ok (.rnd x nn)
  else if f = 0xD#4 then .ok (.drw x y n)
  else if f = 0xE#4 then decodeFamilyE w
  else decodeFamilyF w

/-- Two bytes, the one at the lower address first, as an instruction word (20_memory.md R92, R95). -/
def wordOfBytes (high low : Byte) : Word := high ++ low

/-- The decoder on bytes, lowest address first: the instruction and the bytes after it (30_encoding.md R120). -/
def decode : List Byte → Except DecodeError (Instr × List Byte)
  | high :: low :: rest =>
    match decodeWord (wordOfBytes high low) with
    | .ok i => .ok (i, rest)
    | .error e => .error e
  | _ => .error .truncated

/-- The encoder: each instruction's word, from the layouts of 30_encoding.md R123 and R135. -/
def encode : Instr → Word
  | .cls => 0x00E0#16
  | .ret => 0x00EE#16
  | .jp nnn => 0x1#4 ++ nnn
  | .call nnn => 0x2#4 ++ nnn
  | .seImm x nn => 0x3#4 ++ x ++ nn
  | .sneImm x nn => 0x4#4 ++ x ++ nn
  | .seReg x y => 0x5#4 ++ x ++ y ++ 0x0#4
  | .ldImm x nn => 0x6#4 ++ x ++ nn
  | .addImm x nn => 0x7#4 ++ x ++ nn
  | .ldReg x y => 0x8#4 ++ x ++ y ++ 0x0#4
  | .orReg x y => 0x8#4 ++ x ++ y ++ 0x1#4
  | .andReg x y => 0x8#4 ++ x ++ y ++ 0x2#4
  | .xorReg x y => 0x8#4 ++ x ++ y ++ 0x3#4
  | .addReg x y => 0x8#4 ++ x ++ y ++ 0x4#4
  | .subReg x y => 0x8#4 ++ x ++ y ++ 0x5#4
  | .shr x y => 0x8#4 ++ x ++ y ++ 0x6#4
  | .subnReg x y => 0x8#4 ++ x ++ y ++ 0x7#4
  | .shl x y => 0x8#4 ++ x ++ y ++ 0xE#4
  | .sneReg x y => 0x9#4 ++ x ++ y ++ 0x0#4
  | .ldI nnn => 0xA#4 ++ nnn
  | .jpV0 nnn => 0xB#4 ++ nnn
  | .rnd x nn => 0xC#4 ++ x ++ nn
  | .drw x y n => 0xD#4 ++ x ++ y ++ n
  | .skp x => 0xE#4 ++ x ++ 0x9E#8
  | .sknp x => 0xE#4 ++ x ++ 0xA1#8
  | .ldVxDt x => 0xF#4 ++ x ++ 0x07#8
  | .ldVxK x => 0xF#4 ++ x ++ 0x0A#8
  | .ldDtVx x => 0xF#4 ++ x ++ 0x15#8
  | .ldStVx x => 0xF#4 ++ x ++ 0x18#8
  | .addI x => 0xF#4 ++ x ++ 0x1E#8
  | .ldF x => 0xF#4 ++ x ++ 0x29#8
  | .ldB x => 0xF#4 ++ x ++ 0x33#8
  | .storeRegs x => 0xF#4 ++ x ++ 0x55#8
  | .loadRegs x => 0xF#4 ++ x ++ 0x65#8

/-- The bytes of a word as memory holds it, high byte first (20_memory.md R92). -/
def bytesOfWord (w : Word) : List Byte := [w.extractLsb' 8 8, w.extractLsb' 0 8]

/-- The word of `nbits` bits `w` (the bits above them zero) as a 16-bit instruction word. -/
def tableWord (nbits w : Nat) : Word := BitVec.ofNat 16 (w % 2 ^ nbits)

/-- What the decoder reads from the instruction whose bits are `w`, laid out high byte first. -/
def decodeTableWord (nbits w : Nat) : Option Instr :=
  match decode (bytesOfWord (tableWord nbits w)) with
  | .ok (i, _) => some i
  | .error _ => none

end Sys2Proof
end

