-- ==== Sys2Proof/Config.lean ====
section
/-!
DEFINITION. What the spec leaves to the implementation (00_scope.md R8) and the free values.
A named value here is the spec's RECOMMENDED value of an open parameter; a construction with any other
value is Sys2Proof.Machine.State.construct. The opaque constants are free values: nothing can evaluate them.
-/

namespace Sys2Proof

/-- PC_RESET (10_state.md R76). DESIGN CHOICE, unsafe: the spec's recommended 0x200 (log entry 1). -/
def Config.pcReset : Word := 0x0200

/-- The recommended FONT (20_memory.md R90), glyphs 0 to 7. -/
def Config.fontLow : List Byte :=
  [0xF0, 0x90, 0x90, 0x90, 0xF0] ++ [0x20, 0x60, 0x20, 0x20, 0x70] ++
  [0xF0, 0x10, 0xF0, 0x80, 0xF0] ++ [0xF0, 0x10, 0xF0, 0x10, 0xF0] ++
  [0x90, 0x90, 0xF0, 0x10, 0x10] ++ [0xF0, 0x80, 0xF0, 0x10, 0xF0] ++
  [0xF0, 0x80, 0xF0, 0x90, 0xF0] ++ [0xF0, 0x10, 0x20, 0x40, 0x40]

/-- The recommended FONT (20_memory.md R90), glyphs 8 to F. -/
def Config.fontHigh : List Byte :=
  [0xF0, 0x90, 0xF0, 0x90, 0xF0] ++ [0xF0, 0x90, 0xF0, 0x10, 0xF0] ++
  [0xF0, 0x90, 0xF0, 0x90, 0x90] ++ [0xE0, 0x90, 0xE0, 0x90, 0xE0] ++
  [0xF0, 0x80, 0x80, 0x80, 0xF0] ++ [0xE0, 0x90, 0x90, 0x90, 0xE0] ++
  [0xF0, 0x80, 0xF0, 0x80, 0xF0] ++ [0xF0, 0x80, 0xF0, 0x80, 0x80]

/-- The 80 recommended font bytes, glyph k at 5k (20_memory.md R89, R90).
PRESUMED, unsafe: the spec takes them from general knowledge (log entry 4). -/
def Config.font : List Byte := Config.fontLow ++ Config.fontHigh

/-- FREE VALUE (log entry 5): the byte the `rand` input delivers to the n-th draw. Any byte (41_alu.md R215,
R216); nothing constrains it. -/
opaque Config.randomByte : Nat → Byte

/-- FREE VALUE (log entry 6): the number that picks one of several pressed keys at the n-th draw
(44_keypad_timers.md R287); nothing constrains it. -/
opaque Config.keyChoice : Nat → Nat

end Sys2Proof
end

