-- ==== Sys2Proof/Machine/State.lean ====
section
/-!
DEFINITION. The state of the core (10_state.md R30), as plain data, the reasons a step can stop, and the state right
after construction (10_state.md R75).
-/

namespace Sys2Proof.Machine

/-- Memory M (10_state.md R51): the cells whose byte differs from the one after construction, as (address, byte)
pairs (log entry 17). The operations on it and its canonical form stand in Machine/Memory.lean. -/
abbrev Memory := List Host.Cell

/-- The display buffer D[c][r]: 64 columns of 32 rows, on is true (10_state.md R48). -/
abbrev Display := Vector (Vector Bool 32) 64

/-- The three quirk switches Q, fixed at construction (10_state.md R62). -/
structure Quirks where
  /-- QUIRK_SHIFT_VY: true (legacy) shifts Vy, false (revised) shifts Vx (10_state.md R63). -/
  shiftVy : Bool
  /-- QUIRK_LOADSTORE_INC: true (legacy) adds x+1 to I after Fx55, Fx65 (10_state.md R64). -/
  loadStoreInc : Bool
  /-- QUIRK_JUMP_VX: false (legacy) adds V0 in Bnnn, true (revised) adds Vx (10_state.md R65). -/
  jumpVx : Bool
  deriving DecidableEq, Repr

/-- The open parameter FX1E_WRAP (42_index_memory.md R233). -/
inductive Fx1eWrap where
  /-- The sum is kept modulo 2^16. -/
  | full16
  /-- The sum is masked to 12 bits. -/
  | mask12
  deriving DecidableEq, Repr

/-- The report codes (60_exceptions.md R305). -/
inductive ReportCode where
  | fetchRange
  | addressRange
  | unknownOpcode
  | stackOverflow
  | stackUnderflow
  | memoryRange
  | romWrite
  | keyRange
  | loadEmpty
  | loadTooLarge
  deriving DecidableEq, Repr

/-- A report (60_exceptions.md R302): its code, PC_fetch (PC itself for FETCH_RANGE and for loads), the instruction
word (none for FETCH_RANGE and for loads) and the code's detail value (log entry 15). -/
structure Report where
  code : ReportCode
  pc : Word
  word : Option Word
  info : Nat
  deriving DecidableEq, Repr

/-- The state of the core: the elements of 10_state.md R30 and, last, two fields of the model's own. -/
structure State where
  /-- M, 4096 bytes. -/
  mem : Memory
  /-- V0..VF; VF is the flag (10_state.md R31, R33). -/
  v : Vector Byte 16
  /-- I, the index register (10_state.md R36). -/
  i : Word
  /-- PC (10_state.md R38): the next instruction's address between steps, PC_fetch + 2 during execute. -/
  pc : Word
  /-- SP, the number of return addresses held, 0..16 (10_state.md R42). -/
  sp : Byte
  /-- S, the call stack (10_state.md R43). -/
  stack : Vector Word 16
  /-- DT, the delay timer (10_state.md R46). -/
  dt : Byte
  /-- ST, the sound timer (10_state.md R47). -/
  st : Byte
  /-- D, the display buffer (10_state.md R48). -/
  display : Display
  /-- K, the keypad state, true is pressed (10_state.md R50). -/
  keys : Vector Bool 16
  /-- Q, the quirk switches (10_state.md R62). -/
  quirks : Quirks
  /-- The halted state (10_state.md R70). -/
  halted : Bool
  /-- The report log, oldest first (10_state.md R71). -/
  log : List Report
  /-- THE MODEL'S OWN: the parameter FX1E_WRAP of this instance (log entry 3). -/
  fx1eWrap : Fx1eWrap
  /-- THE MODEL'S OWN: how many free values have been drawn (log entry 7). -/
  draws : Nat
  deriving DecidableEq, Repr

/-- Why the model stops. The spec has no trap (60_exceptions.md R300): every error condition it names is a report and a
next state, so the only fault is for states it excludes. -/
inductive Fault where
  /-- Raised by CALL and RET in a state whose SP is above 16. SAFE: the spec says that SP never exceeds 16 (10_state.md
  R42) and gives no stack entry there; no run from reset reaches such a state (log entry 9). -/
  | stackPointerAbove16
  deriving DecidableEq, Repr

/-- Why an instruction has no meaning. -/
inductive Refusal where
  /-- Raised by an arm of exec whose instruction has no meaning yet. SAFE. No arm answers it: all 34 instructions have
  their meaning. -/
  | notModelled (mnemonic : String)
  deriving DecidableEq, Repr

/-- The state right after construction (10_state.md R75), with the recommended FONT, PC_RESET = 0x200 (log entry 1), the
three quirk inputs false (log entry 2) and FX1E_WRAP = FULL16 (log entry 3). -/
def State.reset : State where
  mem := []
  v := Vector.replicate 16 0
  i := 0
  pc := Config.pcReset
  sp := 0
  stack := Vector.replicate 16 0
  dt := 0
  st := 0
  display := Vector.replicate 64 (Vector.replicate 32 false)
  keys := Vector.replicate 16 false
  quirks := ⟨false, false, false⟩
  halted := false
  log := []
  fx1eWrap := .full16
  draws := 0

end Sys2Proof.Machine
end

