-- ==== Sys2Proof/Machine/Memory.lean ====
section
/-!
DEFINITION. Memory (20_memory.md): what an unlisted address reads as, the byte primitives MemRead and MemWrite, blocks of
bytes, the canonical form, and the address checks of R85-R87.
-/

namespace Sys2Proof.Machine

/-- What an unlisted address reads as: the contents after construction, FONT below 0x050 and 0x00 above (20_memory.md
R83, R90, 10_state.md R75). -/
def Memory.initial (a : Nat) : Byte := Config.font.getD a 0

/-- MemRead(a, 1) (00_scope.md R13). It assumes a legal address: every instruction checks its addresses first (log
entry 12). -/
def Memory.read (m : Memory) (a : Nat) : Byte :=
  match m with
  | [] => Memory.initial a
  | (b, v) :: rest => if b = a then v else Memory.read rest a

/-- A cell in front of `rest`, unless it holds what an unlisted address reads as. -/
def Memory.cons (a : Nat) (v : Byte) (rest : Memory) : Memory :=
  if v = Memory.initial a then rest else (a, v) :: rest

/-- The cells after byte `a` is written, keeping the addresses rising. -/
def Memory.insert (m : Memory) (a : Nat) (v : Byte) : Memory :=
  match m with
  | [] => Memory.cons a v []
  | (b, w) :: rest =>
    if a < b then Memory.cons a v ((b, w) :: rest)
    else if a = b then Memory.cons a v rest
    else (b, w) :: Memory.insert rest a v

/-- MemWrite(a, 1, v) (00_scope.md R13). There is no byte at 0x1000 or above (20_memory.md R81, log entry 12). -/
def Memory.write (m : Memory) (a : Nat) (v : Byte) : Memory :=
  if a < memorySize then Memory.insert m a v else m

/-- Byte writes at `a`, `a+1`, … in order. -/
def Memory.writeBytes (m : Memory) (a : Nat) : List Byte → Memory
  | [] => m
  | v :: vs => Memory.writeBytes (Memory.write m a v) (a + 1) vs

/-- The canonical form: addresses strictly rising and legal, and no cell equal to what an unlisted address reads as. -/
abbrev Memory.wf (m : Memory) : Prop :=
  m.Pairwise (fun c d => c.1 < d.1) ∧ ∀ c ∈ m, c.1 < memorySize ∧ c.2 ≠ Memory.initial c.1

/-- The addresses base, base+1, … of a data access: exact sums, no wrap (20_memory.md R85). -/
def dataAddresses (base count : Nat) : List Nat := (List.range count).map (fun k => base + k)

/-- The lowest address of the access that is at or beyond memory size (20_memory.md R86). -/
def rangeViolation (base count : Nat) : Option Nat :=
  (dataAddresses base count).find? (fun a => decide (memorySize ≤ a))

/-- The lowest address of the access that lies in the font ROM (20_memory.md R87). -/
def romViolation (base count : Nat) : Option Nat :=
  (dataAddresses base count).find? (fun a => decide (a < fontSize))

end Sys2Proof.Machine
end

