-- ==== Sys2Proof/Machine/Ops.lean ====
section
/-!
DEFINITION. The named operations over the state: registers, PC, the call stack, raising a report (this hardware's whole
exception mechanism, 60_exceptions.md R300-R304), fetching, checked memory access, the display and the keypad.
-/

namespace Sys2Proof.Machine

/-! ### Registers -/

/-- V[x] (00_scope.md R12). -/
def State.reg (s : State) (x : Nibble) : Byte := s.v[x.toNat]'x.isLt

/-- V[x] <- b (00_scope.md R12). -/
def State.setReg (s : State) (x : Nibble) (b : Byte) : State := { s with v := s.v.set x.toNat b x.isLt }

/-- A flag as VF holds it: 1 or 0 (41_alu.md R181). -/
def flagByte (f : Bool) : Byte := if f then 1 else 0

/-- V[15] <- the flag (10_state.md R33). -/
def State.setFlag (s : State) (f : Bool) : State := s.setReg vf (flagByte f)

/-- First V[x], then VF (41_alu.md R180): when x = F, VF ends with the flag. -/
def State.setRegThenFlag (s : State) (x : Nibble) (b : Byte) (f : Bool) : State := (s.setReg x b).setFlag f

/-- I <- w. -/
def State.setIndex (s : State) (w : Word) : State := { s with i := w }

/-- PC <- w. -/
def State.setPc (s : State) (w : Word) : State := { s with pc := w }

/-- DT <- b. -/
def State.setDelay (s : State) (b : Byte) : State := { s with dt := b }

/-- ST <- b. -/
def State.setSound (s : State) (b : Byte) : State := { s with st := b }

/-- Fetch's advance, PC <- PC + 2 (30_encoding.md R131). -/
def State.advance (s : State) : State := s.setPc (s.pc + 2)

/-- A skip: PC <- PC + 2 when the condition holds (30_encoding.md R144). -/
def State.skipIf (s : State) (c : Bool) : State := if c then s.advance else s

/-- One more free value has been drawn (log entry 7). -/
def State.countDraw (s : State) : State := { s with draws := s.draws + 1 }

/-! ### Reports (60_exceptions.md R300-R305) -/

/-- The numeric code of a report (60_exceptions.md R305). -/
def ReportCode.number : ReportCode → Nat
  | .fetchRange => 1
  | .addressRange => 2
  | .unknownOpcode => 3
  | .stackOverflow => 4
  | .stackUnderflow => 5
  | .memoryRange => 6
  | .romWrite => 7
  | .keyRange => 8
  | .loadEmpty => 9
  | .loadTooLarge => 10

/-- Append a report to the log (60_exceptions.md R301, 10_state.md R71). -/
def State.appendReport (s : State) (r : Report) : State := { s with log := s.log ++ [r] }

/-- PC_fetch of the instruction being executed: fetch has advanced PC by 2 (00_scope.md R16, 30_encoding.md
R131). -/
def State.pcFetch (s : State) : Word := s.pc - 2

/-- `raise Report(code, info)` by the instruction word `w` (00_scope.md R15, 60_exceptions.md R302). -/
def State.raiseWord (s : State) (w : Word) (code : ReportCode) (info : Nat) : State :=
  s.appendReport ⟨code, s.pcFetch, some w, info⟩

/-- `raise Report(code, info)` by the instruction `i`, whose word is `encode i` (60_exceptions.md R302), the word that
was fetched.
Nothing but the log changes: PC stays at PC_fetch + 2 (60_exceptions.md R303). -/
def State.raise (s : State) (i : Instr) (code : ReportCode) (info : Nat) : State :=
  s.raiseWord (encode i) code info

/-! ### Fetch (30_encoding.md R130-R132, R141) -/

/-- Fetch fails when PC is at or beyond memory size less one (30_encoding.md R132). -/
def State.fetchFails (s : State) : Bool := decide (0x0FFF ≤ s.pc.toNat)

/-- A fetch failure: report FETCH_RANGE and halt, PC unchanged (30_encoding.md R132, 10_state.md R70). -/
def State.failFetch (s : State) : State :=
  { s.appendReport ⟨.fetchRange, s.pc, none, s.pc.toNat⟩ with halted := true }

/-- FetchWord(PC), big-endian (20_memory.md R92, R95). -/
def State.fetchWord (s : State) : Word :=
  wordOfBytes (s.mem.read s.pc.toNat) (s.mem.read (s.pc.toNat + 1))

/-- UNKNOWN: report the word, change nothing else (30_encoding.md R141). -/
def State.raiseUnknown (s : State) (w : Word) : State := s.raiseWord w .unknownOpcode w.toNat

/-- Place an instruction word's two bytes where the next step fetches, with the machine able to fetch (not halted). -/
def State.placeWord (s : State) (w : Word) : State :=
  { s with mem := s.mem.writeBytes s.pc.toNat (bytesOfWord w), halted := false }

/-! ### The call stack (10_state.md R42-R45) -/

/-- S[k]; S has the entries 0..15. -/
def State.stackEntry (s : State) (k : Nat) : Word := (s.stack[k]?).getD 0

/-- Push below the depth limit: S[SP] <- a, SP <- SP + 1 (10_state.md R44). -/
def State.push (s : State) (a : Word) : State :=
  { s with stack := s.stack.setIfInBounds s.sp.toNat a, sp := s.sp + 1 }

/-- Pop above empty, into PC: SP <- SP - 1, PC <- S[SP]; the entry is kept (40_control_flow.md R160, 10_state.md R45). -/
def State.popToPc (s : State) : State :=
  { s with sp := s.sp - 1, pc := s.stackEntry (s.sp.toNat - 1) }

/-! ### Checked memory access (20_memory.md R85-R87) -/

/-- Access `count` bytes from I for reading: MEMORY_RANGE with the lowest bad address, or `done` (20_memory.md R86). -/
def State.checkRead (s : State) (i : Instr) (count : Nat) (done : State) : State :=
  match rangeViolation s.i.toNat count with
  | some a => s.raise i .memoryRange a
  | none => done

/-- Access `count` bytes from I for writing: MEMORY_RANGE, then ROM_WRITE, each with the lowest bad address, or `done`
(20_memory.md R86, R87). -/
def State.checkWrite (s : State) (i : Instr) (count : Nat) (done : State) : State :=
  s.checkRead i count
    (match romViolation s.i.toNat count with
     | some a => s.raise i .romWrite a
     | none => done)

/-- Store bytes at I, I+1, … -/
def State.storeAtIndex (s : State) (bytes : List Byte) : State :=
  { s with mem := s.mem.writeBytes s.i.toNat bytes }

/-- V0..Vx in order (42_index_memory.md R250). -/
def State.regBlock (s : State) (x : Nibble) : List Byte := s.v.toList.take (x.toNat + 1)

/-- for k in 0..x: V[k] <- MemRead(I + k, 1) (42_index_memory.md R253). -/
def State.loadBlock (s : State) (x : Nibble) : State :=
  let v := (List.range (x.toNat + 1)).foldl (fun v k => v.setIfInBounds k (s.mem.read (s.i.toNat + k))) s.v
  { s with v := v }

/-- The legacy increment of Fx55 and Fx65: I <- (I + x + 1) mod 2^16 under QUIRK_LOADSTORE_INC (10_state.md R64). -/
def State.bumpIndex (s : State) (x : Nibble) : State :=
  if s.quirks.loadStoreInc then s.setIndex (BitVec.ofNat 16 (s.i.toNat + x.toNat + 1)) else s

/-! ### The display (10_state.md R48, 43_display.md) -/

/-- D[c][r]; off where there is no such pixel. -/
def Display.get (d : Display) (c r : Nat) : Bool :=
  if h : c < 64 ∧ r < 32 then (d[c]'h.1)[r]'h.2 else false

/-- D[c][r] <- D[c][r] ^ 1. -/
def Display.flip (d : Display) (c r : Nat) : Display :=
  if h : c < 64 ∧ r < 32 then d.set c ((d[c]'h.1).set r (!(d[c]'h.1)[r]'h.2) h.2) h.1 else d

/-- All pixels off (43_display.md R260). -/
def Display.blank : Display := Vector.replicate 64 (Vector.replicate 32 false)

/-- The pixels a sprite of `n` rows at (x0, y0) draws, in drawing order: the 1 bits of its bytes, bit 7 leftmost, less
those past column 63 or row 31 (43_display.md R263-R265). `row r` is the sprite's byte r. -/
def spriteDots (x0 y0 n : Nat) (row : Nat → Byte) : List (Nat × Nat) :=
  (List.range n).flatMap (fun r =>
    (List.range 8).filterMap (fun c =>
      if y0 + r < 32 ∧ x0 + c < 64 ∧ (row r).getLsbD (7 - c) = true then some (x0 + c, y0 + r) else none))

/-- One drawn pixel: the flag notes an on pixel, the pixel flips (43_display.md R263). -/
def drawDot (acc : Display × Bool) (p : Nat × Nat) : Display × Bool :=
  (Display.flip acc.1 p.1 p.2, acc.2 || Display.get acc.1 p.1 p.2)

/-- The display after a draw, and the collision flag, reset at draw start (43_display.md R263, R266). -/
def Display.draw (d : Display) (dots : List (Nat × Nat)) : Display × Bool := dots.foldl drawDot (d, false)

/-! ### The keypad (10_state.md R50, 44_keypad_timers.md) -/

/-- K[k], for a key k of 0..15. -/
def State.keyPressed (s : State) (k : Nat) : Bool := (s.keys[k]?).getD false

/-- The set P of pressed keys, in rising order (44_keypad_timers.md R286). -/
def State.pressedKeys (s : State) : List Nat := (List.range 16).filter (fun k => s.keyPressed k)

/-- choose(P) (44_keypad_timers.md R287): the one pressed key, or, of several, a FREE one (log entry 6). -/
def State.chooseKey (s : State) : List Nat → Nat
  | [] => 0
  | [k] => k
  | k :: ks => (k :: ks).getD (Config.keyChoice s.draws % (k :: ks).length) k

end Sys2Proof.Machine
end

