-- ==== Sys2Proof/Machine/Operands.lean ====
section
/-!
DEFINITION. The operand forms (30_encoding.md R122-R125): the address field, the operands a quirk switch selects, and the
values computed from a register operand.
-/

namespace Sys2Proof.Machine

/-- zext_16(nnn) (30_encoding.md R124). -/
def targetOf (nnn : Addr12) : Word := nnn.setWidth 16

/-- A jump, call or index-load target at or beyond memory size (60_exceptions.md R307). -/
def targetOutOfRange (t : Nat) : Bool := decide (memorySize ≤ t)

/-- The value 8xy6 and 8xyE shift: Vy under QUIRK_SHIFT_VY, else Vx (10_state.md R63, 41_alu.md R208, R211). -/
def State.shiftSource (s : State) (x y : Nibble) : Byte := if s.quirks.shiftVy then s.reg y else s.reg x

/-- Bnnn's offset register: V[nnn[11:8]] under QUIRK_JUMP_VX, else V0 (10_state.md R65, 40_control_flow.md R186). -/
def State.offsetReg (s : State) (nnn : Addr12) : Nibble := if s.quirks.jumpVx then nnn.extractLsb' 8 4 else 0

/-- Bnnn's target, an exact sum (40_control_flow.md R186). -/
def State.offsetTarget (s : State) (nnn : Addr12) : Nat := nnn.toNat + (s.reg (s.offsetReg nnn)).toNat

/-- Fx1E's exact sum I + V[x] (42_index_memory.md R232). -/
abbrev State.indexSum (s : State) (x : Nibble) : Nat := s.i.toNat + (s.reg x).toNat

/-- The width at which Fx1E keeps its sum (42_index_memory.md R233). -/
def Fx1eWrap.narrow : Fx1eWrap → Nat → Word
  | .full16, n => BitVec.ofNat 16 n
  | .mask12, n => BitVec.ofNat 16 (n % 2 ^ 12)

/-- The address of the font glyph of a byte, no masking (42_index_memory.md R236). -/
def glyphAddress (b : Byte) : Word := BitVec.ofNat 16 (b.toNat * 5)

/-- The three decimal digits, hundreds first (42_index_memory.md R240, R241). -/
def decimalDigits (b : Byte) : List Byte :=
  [BitVec.ofNat 8 (b.toNat / 100), BitVec.ofNat 8 (b.toNat / 10 % 10), BitVec.ofNat 8 (b.toNat % 10)]

/-- Dxyn's start column V[x] mod 64 (43_display.md R263, R265). -/
def State.startColumn (s : State) (x : Nibble) : Nat := (s.reg x).toNat % 64

/-- Dxyn's start row V[y] mod 32 (43_display.md R263, R265). -/
def State.startRow (s : State) (y : Nibble) : Nat := (s.reg y).toNat % 32

/-- The pixels Dxyn draws: the n sprite bytes at I (43_display.md R263). -/
def State.dots (s : State) (x y n : Nibble) : List (Nat × Nat) :=
  spriteDots (s.startColumn x) (s.startRow y) n.toNat (fun r => s.mem.read (s.i.toNat + r))

/-- The key index V[x] (44_keypad_timers.md R280). -/
abbrev State.keyIndex (s : State) (x : Nibble) : Nat := (s.reg x).toNat

/-- A key index that names no key (44_keypad_timers.md R281). -/
def keyOutOfRange (k : Nat) : Bool := decide (16 ≤ k)

end Sys2Proof.Machine
end

