-- ==== Sys2Proof/Machine/Flags.lean ====
section
/-!
DEFINITION. The 8-bit results and the flag computations (41_alu.md R181, R201-R211, 42_index_memory.md R232). VF is the only
flag (10_state.md R35).
-/

namespace Sys2Proof.Machine

/-- (a + b) mod 2^8 (41_alu.md R192, R201). -/
def addResult (a b : Byte) : Byte := BitVec.ofNat 8 (a.toNat + b.toNat)

/-- A carry out of bit 7: the exact sum is at least 0x100 (41_alu.md R201). -/
def addCarry (a b : Byte) : Bool := decide (0x100 ≤ a.toNat + b.toNat)

/-- (a - b) mod 2^8 (41_alu.md R203, R205). -/
def subResult (a b : Byte) : Byte := a - b

/-- No borrow in a - b: a is at least b (41_alu.md R203, R205, R206). -/
def noBorrow (a b : Byte) : Bool := decide (b.toNat ≤ a.toNat)

/-- v >> 1 (41_alu.md R208). -/
def shiftRight (v : Byte) : Byte := v >>> 1

/-- The bit a right shift by one shifts out: bit 0 (41_alu.md R208). -/
def rightBitOut (v : Byte) : Bool := v.getLsbD 0

/-- (v << 1) mod 2^8 (41_alu.md R211). -/
def shiftLeft (v : Byte) : Byte := v <<< 1

/-- The bit a left shift by one shifts out: bit 7 (41_alu.md R211). -/
def leftBitOut (v : Byte) : Bool := v.getLsbD 7

/-- Fx1E's flag: the sum is at or beyond memory size (42_index_memory.md R232). -/
def indexOverflow (sum : Nat) : Bool := decide (memorySize ≤ sum)

end Sys2Proof.Machine
end

