-- ==== Sys2Proof/Machine/Alu.lean ====
section
/-!
DEFINITION. The register and ALU instructions (41_alu.md). On entry PC is PC_fetch + 2, and none of them writes PC, touches
memory or raises a report.
-/

namespace Sys2Proof.Machine

/-- 6xnn `LD Vx, nn` (41_alu.md R190). -/
def execLdImm (x : Nibble) (nn : Byte) (s : State) : Host.Outcome State Fault Refusal :=
  .next (s.setReg x nn)

/-- 7xnn `ADD Vx, nn` (41_alu.md R192): no flag. -/
def execAddImm (x : Nibble) (nn : Byte) (s : State) : Host.Outcome State Fault Refusal :=
  .next (s.setReg x (addResult (s.reg x) nn))

/-- 8xy0 `LD Vx, Vy` (41_alu.md R195). -/
def execLdReg (x y : Nibble) (s : State) : Host.Outcome State Fault Refusal :=
  .next (s.setReg x (s.reg y))

/-- 8xy1 `OR Vx, Vy` (41_alu.md R196, R197). -/
def execOrReg (x y : Nibble) (s : State) : Host.Outcome State Fault Refusal :=
  .next (s.setReg x (s.reg x ||| s.reg y))

/-- 8xy2 `AND Vx, Vy` (41_alu.md R196, R198). -/
def execAndReg (x y : Nibble) (s : State) : Host.Outcome State Fault Refusal :=
  .next (s.setReg x (s.reg x &&& s.reg y))

/-- 8xy3 `XOR Vx, Vy` (41_alu.md R196, R199). -/
def execXorReg (x y : Nibble) (s : State) : Host.Outcome State Fault Refusal :=
  .next (s.setReg x (s.reg x ^^^ s.reg y))

/-- 8xy4 `ADD Vx, Vy` (41_alu.md R180, R201). -/
def execAddReg (x y : Nibble) (s : State) : Host.Outcome State Fault Refusal :=
  .next (s.setRegThenFlag x (addResult (s.reg x) (s.reg y)) (addCarry (s.reg x) (s.reg y)))

/-- 8xy5 `SUB Vx, Vy` (41_alu.md R180, R203). -/
def execSubReg (x y : Nibble) (s : State) : Host.Outcome State Fault Refusal :=
  .next (s.setRegThenFlag x (subResult (s.reg x) (s.reg y)) (noBorrow (s.reg x) (s.reg y)))

/-- 8xy6 `SHR Vx, Vy` (41_alu.md R180, R208, R210). -/
def execShr (x y : Nibble) (s : State) : Host.Outcome State Fault Refusal :=
  .next (s.setRegThenFlag x (shiftRight (s.shiftSource x y)) (rightBitOut (s.shiftSource x y)))

/-- 8xy7 `SUBN Vx, Vy` (41_alu.md R180, R205). -/
def execSubnReg (x y : Nibble) (s : State) : Host.Outcome State Fault Refusal :=
  .next (s.setRegThenFlag x (subResult (s.reg y) (s.reg x)) (noBorrow (s.reg y) (s.reg x)))

/-- 8xyE `SHL Vx, Vy` (41_alu.md R180, R210, R211). -/
def execShl (x y : Nibble) (s : State) : Host.Outcome State Fault Refusal :=
  .next (s.setRegThenFlag x (shiftLeft (s.shiftSource x y)) (leftBitOut (s.shiftSource x y)))

/-- Cxnn `RND Vx, nn` (41_alu.md R215, R216): a fresh FREE byte (log entry 5), masked. -/
def execRnd (x : Nibble) (nn : Byte) (s : State) : Host.Outcome State Fault Refusal :=
  .next (s.setReg x (Config.randomByte s.draws &&& nn)).countDraw

end Sys2Proof.Machine
end

