-- ==== Sys2Proof/Machine/ControlFlow.lean ====
section
/-!
DEFINITION. The control flow instructions (40_control_flow.md). On entry PC is PC_fetch + 2.
-/

namespace Sys2Proof.Machine

/-- 00EE `RET` (40_control_flow.md R160): underflow at SP = 0. An SP above 16 is no state of the spec (log entry 9). -/
def execRet (s : State) : Host.Outcome State Fault Refusal :=
  if s.sp.toNat = 0 then .next (s.raise .ret .stackUnderflow 0)
  else if 16 < s.sp.toNat then .fault .stackPointerAbove16
  else .next s.popToPc

/-- 1nnn `JP nnn` (40_control_flow.md R163); its range check never fires (R164). -/
def execJp (nnn : Addr12) (s : State) : Host.Outcome State Fault Refusal :=
  if targetOutOfRange (targetOf nnn).toNat then .next (s.raise (.jp nnn) .addressRange nnn.toNat)
  else .next (s.setPc (targetOf nnn))

/-- 2nnn `CALL nnn` (40_control_flow.md R166): overflow at SP = 16; the range check never fires (R164). An SP above 16 is
no state of the spec (log entry 9). -/
def execCall (nnn : Addr12) (s : State) : Host.Outcome State Fault Refusal :=
  if targetOutOfRange (targetOf nnn).toNat then .next (s.raise (.call nnn) .addressRange nnn.toNat)
  else if s.sp.toNat = 16 then .next (s.raise (.call nnn) .stackOverflow 16)
  else if 16 < s.sp.toNat then .fault .stackPointerAbove16
  else .next ((s.push s.pc).setPc (targetOf nnn))

/-- 3xnn `SE Vx, nn` (40_control_flow.md R170). -/
def execSeImm (x : Nibble) (nn : Byte) (s : State) : Host.Outcome State Fault Refusal :=
  .next (s.skipIf (s.reg x == nn))

/-- 4xnn `SNE Vx, nn` (40_control_flow.md R173). -/
def execSneImm (x : Nibble) (nn : Byte) (s : State) : Host.Outcome State Fault Refusal :=
  .next (s.skipIf (s.reg x != nn))

/-- 5xy0 `SE Vx, Vy` (40_control_flow.md R176). -/
def execSeReg (x y : Nibble) (s : State) : Host.Outcome State Fault Refusal :=
  .next (s.skipIf (s.reg x == s.reg y))

/-- 9xy0 `SNE Vx, Vy` (40_control_flow.md R179). -/
def execSneReg (x y : Nibble) (s : State) : Host.Outcome State Fault Refusal :=
  .next (s.skipIf (s.reg x != s.reg y))

/-- Bnnn `JP V0, nnn` (40_control_flow.md R186, R188). -/
def execJpV0 (nnn : Addr12) (s : State) : Host.Outcome State Fault Refusal :=
  if targetOutOfRange (s.offsetTarget nnn) then .next (s.raise (.jpV0 nnn) .addressRange (s.offsetTarget nnn))
  else .next (s.setPc (BitVec.ofNat 16 (s.offsetTarget nnn)))

end Sys2Proof.Machine
end

