-- ==== Sys2Proof/Machine/DisplayOps.lean ====
section
/-!
DEFINITION. The display instructions (43_display.md). On entry PC is PC_fetch + 2, and neither writes PC.
-/

namespace Sys2Proof.Machine

/-- 00E0 `CLS` (43_display.md R260). -/
def execCls (s : State) : Host.Outcome State Fault Refusal :=
  .next { s with display := Display.blank }

/-- The state after a completed draw: D, then VF (43_display.md R263, R269). -/
def State.drawSprite (s : State) (x y n : Nibble) : State :=
  State.setFlag { s with display := (Display.draw s.display (s.dots x y n)).1 }
    (Display.draw s.display (s.dots x y n)).2

/-- Dxyn `DRW Vx, Vy, n` (43_display.md R263-R269): all n sprite addresses are checked first. -/
def execDrw (x y n : Nibble) (s : State) : Host.Outcome State Fault Refusal :=
  .next (s.checkRead (.drw x y n) n.toNat (s.drawSprite x y n))

end Sys2Proof.Machine
end

