-- ==== Sys2Proof/Machine/IndexMemory.lean ====
section
/-!
DEFINITION. The index register and memory transfer instructions (42_index_memory.md). On entry PC is PC_fetch + 2, and none
of them writes PC.
-/

namespace Sys2Proof.Machine

/-- Annn `LD I, nnn` (42_index_memory.md R230); its range check never fires (40_control_flow.md R164). -/
def execLdI (nnn : Addr12) (s : State) : Host.Outcome State Fault Refusal :=
  if targetOutOfRange (targetOf nnn).toNat then .next (s.raise (.ldI nnn) .addressRange nnn.toNat)
  else .next (s.setIndex (targetOf nnn))

/-- Fx1E `ADD I, Vx` (42_index_memory.md R232, R233): I, then VF. -/
def execAddI (x : Nibble) (s : State) : Host.Outcome State Fault Refusal :=
  .next ((s.setIndex (s.fx1eWrap.narrow (s.indexSum x))).setFlag (indexOverflow (s.indexSum x)))

/-- Fx29 `LD F, Vx` (42_index_memory.md R236). -/
def execLdF (x : Nibble) (s : State) : Host.Outcome State Fault Refusal :=
  .next (s.setIndex (glyphAddress (s.reg x)))

/-- Fx33 `LD B, Vx` (42_index_memory.md R240, R241). -/
def execLdB (x : Nibble) (s : State) : Host.Outcome State Fault Refusal :=
  .next (s.checkWrite (.ldB x) 3 (s.storeAtIndex (decimalDigits (s.reg x))))

/-- Fx55 `LD [I], Vx` (42_index_memory.md R250). -/
def execStoreRegs (x : Nibble) (s : State) : Host.Outcome State Fault Refusal :=
  .next (s.checkWrite (.storeRegs x) (x.toNat + 1) ((s.storeAtIndex (s.regBlock x)).bumpIndex x))

/-- Fx65 `LD Vx, [I]` (42_index_memory.md R253). -/
def execLoadRegs (x : Nibble) (s : State) : Host.Outcome State Fault Refusal :=
  .next (s.checkRead (.loadRegs x) (x.toNat + 1) ((s.loadBlock x).bumpIndex x))

end Sys2Proof.Machine
end

