-- ==== Sys2Proof/Machine/KeypadTimers.lean ====
section
/-!
DEFINITION. The keypad and timer instructions (44_keypad_timers.md). On entry PC is PC_fetch + 2.
-/

namespace Sys2Proof.Machine

/-- Ex9E `SKP Vx` (44_keypad_timers.md R280, R281). -/
def execSkp (x : Nibble) (s : State) : Host.Outcome State Fault Refusal :=
  if keyOutOfRange (s.keyIndex x) then .next (s.raise (.skp x) .keyRange (s.keyIndex x))
  else .next (s.skipIf (s.keyPressed (s.keyIndex x)))

/-- ExA1 `SKNP Vx` (44_keypad_timers.md R281, R283). -/
def execSknp (x : Nibble) (s : State) : Host.Outcome State Fault Refusal :=
  if keyOutOfRange (s.keyIndex x) then .next (s.raise (.sknp x) .keyRange (s.keyIndex x))
  else .next (s.skipIf (!s.keyPressed (s.keyIndex x)))

/-- Fx07 `LD Vx, DT` (44_keypad_timers.md R290). -/
def execLdVxDt (x : Nibble) (s : State) : Host.Outcome State Fault Refusal :=
  .next (s.setReg x s.dt)

/-- Fx0A `LD Vx, K` (44_keypad_timers.md R286-R288): with no key pressed PC rewinds to PC_fetch. -/
def execLdVxK (x : Nibble) (s : State) : Host.Outcome State Fault Refusal :=
  if s.pressedKeys = [] then .next (s.setPc s.pcFetch)
  else .next (s.setReg x (BitVec.ofNat 8 (s.chooseKey s.pressedKeys))).countDraw

/-- Fx15 `LD DT, Vx` (44_keypad_timers.md R292). -/
def execLdDtVx (x : Nibble) (s : State) : Host.Outcome State Fault Refusal :=
  .next (s.setDelay (s.reg x))

/-- Fx18 `LD ST, Vx` (44_keypad_timers.md R294). -/
def execLdStVx (x : Nibble) (s : State) : Host.Outcome State Fault Refusal :=
  .next (s.setSound (s.reg x))

end Sys2Proof.Machine
end

