-- ==== Sys2Proof/Machine/Step.lean ====
section
/-!
DEFINITION. One step: fetch, decode, execute (30_encoding.md R130).
-/

namespace Sys2Proof.Machine

/-- The `step` strobe (30_encoding.md R130, 10_state.md R54): a halted core does nothing; a fetch at or beyond 0x0FFF
reports and halts; else PC advances by 2 and the decoded instruction executes, or the UNKNOWN word is reported. -/
def step (s : State) : Host.Outcome State Fault Refusal :=
  if s.halted then .next s
  else if s.fetchFails then .next s.failFetch
  else
    match decodeWord s.fetchWord with
    | .ok i => exec i s.advance
    | .error _ => .next (s.advance.raiseUnknown s.fetchWord)

/-- `s` with the instruction of bits `w` stored where the next step fetches (log entry 11). -/
def State.withFetchWord (s : State) (nbits w : Nat) : State := s.placeWord (tableWord nbits w)

end Sys2Proof.Machine
end

