-- ==== Sys2Proof/Machine/Transactions.lean ====
section
/-!
DEFINITION. The host's side of the block (10_state.md R53-R59, 60_exceptions.md R340): the transactions between steps, the
outputs, and the construction of an instance with any parameters. Each transaction is atomic, and the host chooses their
order freely (70_reset_and_hazards.md R383, log entry 10).
-/

namespace Sys2Proof.Machine

/-- A timer's decrement with floor 0 (44_keypad_timers.md R296). -/
def countDown (t : Byte) : Byte := if 0 < t.toNat then t - 1 else t

/-- The `tick` strobe: DT and ST count down, also while halted (44_keypad_timers.md R296). -/
def State.tick (s : State) : State := { s with dt := countDown s.dt, st := countDown s.st }

/-- A key update: the 16 key inputs are latched into K (10_state.md R53, R56). -/
def State.latchKeys (s : State) (keys : Vector Bool 16) : State := { s with keys := keys }

/-- A report of a load: PC at the time, no word (60_exceptions.md R311). -/
def State.raiseLoad (s : State) (code : ReportCode) (info : Nat) : State := s.appendReport ⟨code, s.pc, none, info⟩

/-- A program load (20_memory.md R110-R113): none is an unopenable image (log entry 16). It resets nothing
(10_state.md R77). -/
def State.load (s : State) (image : Option (List Byte)) : State :=
  match image with
  | none => s.raiseLoad .loadEmpty 0
  | some [] => s.raiseLoad .loadEmpty 0
  | some (b :: bs) =>
    if maxImage < (b :: bs).length then s.raiseLoad .loadTooLarge (b :: bs).length
    else { s with mem := s.mem.writeBytes loadBase (b :: bs) }

/-- The `sound` output: ST > 0 (10_state.md R58, 44_keypad_timers.md R298). -/
def State.soundOut (s : State) : Bool := decide (0 < s.st.toNat)

/-- The `display` output: D as it stands (10_state.md R58). -/
def State.displayOut (s : State) : Display := s.display

/-- The `halted` output (10_state.md R53, R70). -/
def State.haltedOut (s : State) : Bool := s.halted

/-- The `report` output of a transaction from `s` to `t`: the reports it appended (10_state.md R59). -/
def reportOut (s t : State) : List Report := t.log.drop s.log.length

/-- The parameters an instance is constructed with (00_scope.md R8, 60_exceptions.md R340). -/
structure Construction where
  pcReset : Word
  font : Vector Byte 80
  quirks : Quirks
  fx1eWrap : Fx1eWrap
  deriving DecidableEq, Repr

/-- Construction, the only reset (70_reset_and_hazards.md R350, 10_state.md R75), with any parameters. -/
def State.construct (p : Construction) : State :=
  { State.reset with
    mem := Memory.writeBytes [] 0 p.font.toList
    pc := p.pcReset
    quirks := p.quirks
    fx1eWrap := p.fx1eWrap }

/-- What the host can do between steps, and the step itself (60_exceptions.md R340). Reading the outputs changes nothing. -/
inductive Transaction where
  | step
  | tick
  | keys (keys : Vector Bool 16)
  | load (image : Option (List Byte))
  deriving DecidableEq, Repr

/-- One transaction. -/
def transact (a : Transaction) (s : State) : Host.Outcome State Fault Refusal :=
  match a with
  | .step => step s
  | .tick => .next s.tick
  | .keys keys => .next (s.latchKeys keys)
  | .load image => .next (s.load image)

/-- Transactions in the order the host chooses (60_exceptions.md R316), stopping at a fault or a refusal. -/
def transactAll : List Transaction → State → Host.Outcome State Fault Refusal
  | [], s => .next s
  | a :: rest, s =>
    match transact a s with
    | .next t => transactAll rest t
    | .fault r => .fault r
    | .refused r => .refused r

end Sys2Proof.Machine
end

