-- ==== Sys2Proof/Safety.lean ====
section
/-!
DEFINITION. What claims speak of: the invariants of the core, a clean run (10_state.md R71), and the sprite of a draw as the
rule gives it, pixel by pixel.
-/

namespace Sys2Proof.Machine

/-- Memory keeps its canonical form: legal addresses only, so M has exactly the bytes 0x000..0xFFF (20_memory.md R80). -/
abbrev State.MemoryOk (s : State) : Prop := s.mem.wf

/-- SP never exceeds 16 (10_state.md R42). -/
abbrev State.StackPointerOk (s : State) : Prop := s.sp.toNat ≤ 16

/-- The bound behind "PC never wraps": PC at most 0x1002 (10_state.md R41), and every stack entry, which may become PC,
at most 0x1000 (40_control_flow.md R160). -/
abbrev State.PcBounded (s : State) : Prop := s.pc.toNat ≤ 0x1002 ∧ ∀ k < 16, (s.stackEntry k).toNat ≤ 0x1000

/-- The invariant of every state a run reaches. -/
abbrev State.Inv (s : State) : Prop := s.MemoryOk ∧ s.StackPointerOk ∧ s.PcBounded

/-- The premise the spec gives claims about runs: no report so far, and not halted (10_state.md R71, 60_exceptions.md
R304). -/
abbrev State.Clean (s : State) : Prop := s.log = [] ∧ s.halted = false

/-- The sprite of Dxyn draws the pixel (c, r): inside the 8 columns from V[x] mod 64 and the n rows from V[y] mod 32, with
a 1 bit of the row's byte there, bit 7 leftmost (43_display.md R263-R265). -/
def State.spriteCovers (s : State) (x y n : Nibble) (c r : Nat) : Prop :=
  (s.reg x).toNat % 64 ≤ c ∧ c < (s.reg x).toNat % 64 + 8 ∧
  (s.reg y).toNat % 32 ≤ r ∧ r < (s.reg y).toNat % 32 + n.toNat ∧
  (s.mem.read (s.i.toNat + (r - (s.reg y).toNat % 32))).getLsbD (7 - (c - (s.reg x).toNat % 64)) = true

/-- Some drawn pixel of the sprite stands on the screen and is on (43_display.md R266). -/
def State.spriteCollides (s : State) (x y n : Nibble) : Prop :=
  ∃ c < 64, ∃ r < 32, s.spriteCovers x y n c r ∧ Display.get s.display c r = true

/-- The instructions that write VF as a flag (10_state.md R33). -/
def writesFlag : Instr → Bool
  | .addReg _ _ | .subReg _ _ | .subnReg _ _ | .shr _ _ | .shl _ _ | .drw _ _ _ | .addI _ => true
  | .cls | .ret | .jp _ | .call _ | .seImm _ _ | .sneImm _ _ | .seReg _ _ | .ldImm _ _ | .addImm _ _ | .ldReg _ _
  | .orReg _ _ | .andReg _ _ | .xorReg _ _ | .sneReg _ _ | .ldI _ | .jpV0 _ | .rnd _ _ | .skp _ | .sknp _ | .ldVxDt _
  | .ldVxK _ | .ldDtVx _ | .ldStVx _ | .ldF _ | .ldB _ | .storeRegs _ | .loadRegs _ => false

/-- The register is a destination that an instruction names by its x field: V[x], or V0..Vx for Fx65 (10_state.md R32). -/
def namesDestination (r : Nibble) : Instr → Bool
  | .ldImm x _ | .addImm x _ | .ldReg x _ | .orReg x _ | .andReg x _ | .xorReg x _ | .addReg x _ | .subReg x _
  | .subnReg x _ | .shr x _ | .shl x _ | .rnd x _ | .ldVxDt x | .ldVxK x => x == r
  | .loadRegs x => decide (r.toNat ≤ x.toNat)
  | .cls | .ret | .jp _ | .call _ | .seImm _ _ | .sneImm _ _ | .seReg _ _ | .sneReg _ _ | .ldI _ | .jpV0 _ | .drw _ _ _
  | .skp _ | .sknp _ | .ldDtVx _ | .ldStVx _ | .addI _ | .ldF _ | .ldB _ | .storeRegs _ => false

end Sys2Proof.Machine
end

