-- ==== Sys2Proof/Certificates/Slice0/Obligations.lean ====
section
/-!
DEFINITION. The statements for the provers, from the numbered rules of spec/. `t = { s with f := t.f }` says that every field
but f is unchanged. A meaning runs after fetch, so PC_fetch is s.pc - 2 in a statement about exec (00_scope.md R16).
-/

open Sys2Proof Sys2Proof.Machine

/-! ### Encoding, fetch and step -/

/-- Every instruction, with every operand value, decodes from its own encoding. -/
def Obligations.DecodeOfEncodeIsTheInstruction : Prop := ∀ i : Instr, decodeWord (encode i) = .ok i

/-- A word that decodes is the encoding of what it decodes to: no bit is dropped, and the word a report holds is the
word that was fetched. -/
def Obligations.EncodeOfDecodedWordIsTheWord : Prop :=
  ∀ (w : Word) (i : Instr), decodeWord w = .ok i → encode i = w

/-- R133: a word fits at most one row of the opcode map; it decodes, to an instruction of that row, when it fits one, and
is UNKNOWN when it fits none. -/
def Obligations.DecodeFollowsTheOpcodeMap : Prop :=
  ∀ w : Word,
    (∀ r ∈ opcodeRows, ∀ q ∈ opcodeRows, r.fits w = true → q.fits w = true → r = q) ∧
    (wordWellFormed w = true → ∃ i, decodeWord w = .ok i ∧ i.row ∈ opcodeRows ∧ i.row.fits w = true) ∧
    (wordWellFormed w = false → decodeWord w = .error (.unknown w))

/-- Words written out from the encodings of 30_encoding.md R123, R135 and the examples of the rules (sanity). -/
def Obligations.SampleWordsDecode : Prop :=
  decodeWord 0x00E0 = .ok .cls ∧ decodeWord 0x1234 = .ok (.jp 0x234) ∧ decodeWord 0x3305 = .ok (.seImm 3 0x05) ∧
  decodeWord 0x8016 = .ok (.shr 0 1) ∧ decodeWord 0xB300 = .ok (.jpV0 0x300) ∧ decodeWord 0xD5A3 = .ok (.drw 5 0xA 3) ∧
  decodeWord 0xE19E = .ok (.skp 1) ∧ decodeWord 0xF355 = .ok (.storeRegs 3) ∧
  decodeWord 0x5121 = .error (.unknown 0x5121) ∧ decodeWord 0x0123 = .error (.unknown 0x0123)

/-- R95: at every PC where a fetch is defined, even or odd, the fetched word has the byte at PC as its high byte and the
byte at PC+1 as its low byte. -/
def Obligations.FetchIsBigEndian : Prop :=
  ∀ s : State, s.pc.toNat ≤ 0x0FFE →
    s.fetchWord.toNat = (s.mem.read s.pc.toNat).toNat * 2 ^ 8 + (s.mem.read (s.pc.toNat + 1)).toNat

/-- A step runs the instruction its two bytes decode to, after moving PC past them. -/
def Obligations.StepRunsTheDecodedInstruction : Prop :=
  ∀ (s : State) (i : Instr), s.halted = false → s.pc.toNat < 0x0FFF →
    decode [s.mem.read s.pc.toNat, s.mem.read (s.pc.toNat + 1)] = .ok (i, []) →
    step s = exec i { s with pc := s.pc + 2 }

/-- R130, R132: the whole step: halted, fetch failure, an instruction, an UNKNOWN word. -/
def Obligations.StepIsFetchDecodeExecute : Prop :=
  ∀ s : State,
    (s.halted = true → step s = .next s) ∧
    (s.halted = false → 0x0FFF ≤ s.pc.toNat →
      step s = .next { s with halted := true, log := s.log ++ [⟨.fetchRange, s.pc, none, s.pc.toNat⟩] }) ∧
    (∀ i, s.halted = false → s.pc.toNat < 0x0FFF → decodeWord s.fetchWord = .ok i →
      step s = exec i { s with pc := s.pc + 2 }) ∧
    (∀ e, s.halted = false → s.pc.toNat < 0x0FFF → decodeWord s.fetchWord = .error e →
      step s = .next { s with
        pc := s.pc + 2, log := s.log ++ [⟨.unknownOpcode, s.pc, some s.fetchWord, s.fetchWord.toNat⟩] })

/-- R141: a word that fits no row of the opcode map is reported and passed over; only the log and PC change. -/
def Obligations.UnknownWordsAreReportedNoOps : Prop :=
  ∀ s : State, s.halted = false → s.pc.toNat < 0x0FFF → wordWellFormed s.fetchWord = false →
    step s = .next { s with
      pc := s.pc + 2, log := s.log ++ [⟨.unknownOpcode, s.pc, some s.fetchWord, s.fetchWord.toNat⟩] }

/-! ### Control flow -/

/-- R160: RET. -/
def Obligations.ReturnPopsTheStackOrReports : Prop :=
  decodeWord 0x00EE = .ok .ret ∧
  ∀ s : State,
    (s.sp.toNat = 0 →
      exec .ret s = .next { s with log := s.log ++ [⟨.stackUnderflow, s.pc - 2, some 0x00EE, 0⟩] }) ∧
    (0 < s.sp.toNat → s.sp.toNat ≤ 16 →
      ∃ t, exec .ret s = .next t ∧ t = { s with sp := t.sp, pc := t.pc } ∧
        t.sp.toNat = s.sp.toNat - 1 ∧ t.pc = s.stackEntry (s.sp.toNat - 1))

/-- R163: JP, for every target; no report can be made. -/
def Obligations.JumpSetsPc : Prop :=
  ∀ (s : State) (nnn : Addr12),
    decodeWord (0x1#4 ++ nnn) = .ok (.jp nnn) ∧
    ∃ t, exec (.jp nnn) s = .next t ∧ t = { s with pc := t.pc } ∧ t.pc.toNat = nnn.toNat

/-- R166: CALL. -/
def Obligations.CallPushesTheReturnAddressOrReports : Prop :=
  ∀ (s : State) (nnn : Addr12),
    decodeWord (0x2#4 ++ nnn) = .ok (.call nnn) ∧
    (s.sp.toNat = 16 →
      exec (.call nnn) s = .next { s with log := s.log ++ [⟨.stackOverflow, s.pc - 2, some (0x2#4 ++ nnn), 16⟩] }) ∧
    (s.sp.toNat < 16 →
      ∃ t, exec (.call nnn) s = .next t ∧ t = { s with stack := t.stack, sp := t.sp, pc := t.pc } ∧
        t.sp.toNat = s.sp.toNat + 1 ∧ t.pc.toNat = nnn.toNat ∧
        ∀ k < 16, t.stackEntry k = if k = s.sp.toNat then s.pc else s.stackEntry k)

/-- The model's own stop (log entry 9): in a state whose SP is above 16, which the spec excludes, CALL and RET fault. -/
def Obligations.CallAndReturnStopAboveDepth16 : Prop :=
  ∀ (s : State) (nnn : Addr12), 16 < s.sp.toNat →
    exec .ret s = .fault .stackPointerAbove16 ∧ exec (.call nnn) s = .fault .stackPointerAbove16

/-- The spec's inference in R161: RET after one prior CALL restores PC to the address after the call, and SP, whatever else changed between. -/
def Obligations.ReturnAfterCallRestoresPc : Prop :=
  ∀ (s t u : State) (nnn : Addr12), s.sp.toNat < 16 → exec (.call nnn) s = .next t →
    u.sp = t.sp → u.stack = t.stack →
    ∃ w, exec .ret u = .next w ∧ w.pc = s.pc ∧ w.sp = s.sp

/-- R170, R173: the skips on an immediate. -/
def Obligations.SkipsOnImmediate : Prop :=
  ∀ (s : State) (x : Nibble) (nn : Byte),
    decodeWord (0x3#4 ++ x ++ nn) = .ok (.seImm x nn) ∧
    exec (.seImm x nn) s = .next { s with pc := if (s.reg x).toNat = nn.toNat then s.pc + 2 else s.pc } ∧
    decodeWord (0x4#4 ++ x ++ nn) = .ok (.sneImm x nn) ∧
    exec (.sneImm x nn) s = .next { s with pc := if (s.reg x).toNat ≠ nn.toNat then s.pc + 2 else s.pc }

/-- R176, R179: the skips on two registers. -/
def Obligations.SkipsOnRegisters : Prop :=
  ∀ (s : State) (x y : Nibble),
    decodeWord (0x5#4 ++ x ++ y ++ 0x0#4) = .ok (.seReg x y) ∧
    exec (.seReg x y) s = .next { s with pc := if (s.reg x).toNat = (s.reg y).toNat then s.pc + 2 else s.pc } ∧
    decodeWord (0x9#4 ++ x ++ y ++ 0x0#4) = .ok (.sneReg x y) ∧
    exec (.sneReg x y) s = .next { s with pc := if (s.reg x).toNat ≠ (s.reg y).toNat then s.pc + 2 else s.pc }

/-- R186: JP V0 adds V0, or V[nnn[11:8]] under QUIRK_JUMP_VX; a target at or beyond 0x1000 is reported and skipped. -/
def Obligations.OffsetJumpAddsTheSelectedRegister : Prop :=
  ∀ (s : State) (nnn : Addr12) (r : Nibble) (target : Nat),
    decodeWord (0xB#4 ++ nnn) = .ok (.jpV0 nnn) ∧
    (r.toNat = (if s.quirks.jumpVx then nnn.toNat / 256 else 0) → target = nnn.toNat + (s.reg r).toNat →
      (target < 0x1000 →
        ∃ t, exec (.jpV0 nnn) s = .next t ∧ t = { s with pc := t.pc } ∧ t.pc.toNat = target) ∧
      (0x1000 ≤ target →
        exec (.jpV0 nnn) s =
          .next { s with log := s.log ++ [⟨.addressRange, s.pc - 2, some (0xB#4 ++ nnn), target⟩] }))

/-! ### Register and ALU instructions -/

/-- R190, R195: load immediate and register copy. -/
def Obligations.LoadImmediateAndCopy : Prop :=
  ∀ (s : State) (x y : Nibble) (nn : Byte),
    decodeWord (0x6#4 ++ x ++ nn) = .ok (.ldImm x nn) ∧
    (∃ t, exec (.ldImm x nn) s = .next t ∧ t = { s with v := t.v } ∧
      ∀ r, t.reg r = if r = x then nn else s.reg r) ∧
    decodeWord (0x8#4 ++ x ++ y ++ 0x0#4) = .ok (.ldReg x y) ∧
    (∃ t, exec (.ldReg x y) s = .next t ∧ t = { s with v := t.v } ∧
      ∀ r, t.reg r = if r = x then s.reg y else s.reg r)

/-- R192: add immediate, modulo 2^8, no flag. -/
def Obligations.AddImmediateWrapsWithoutFlag : Prop :=
  ∀ (s : State) (x : Nibble) (nn : Byte),
    decodeWord (0x7#4 ++ x ++ nn) = .ok (.addImm x nn) ∧
    ∃ t, exec (.addImm x nn) s = .next t ∧ t = { s with v := t.v } ∧
      ∀ r, (t.reg r).toNat = if r = x then ((s.reg x).toNat + nn.toNat) % 256 else (s.reg r).toNat

/-- R197, R198, R199: OR, AND, XOR, bit by bit; VF is written only when it is the destination (R196). -/
def Obligations.LogicOperationsLeaveVfUnflagged : Prop :=
  ∀ (s : State) (x y : Nibble),
    decodeWord (0x8#4 ++ x ++ y ++ 0x1#4) = .ok (.orReg x y) ∧
    (∃ t, exec (.orReg x y) s = .next t ∧ t = { s with v := t.v } ∧
      ∀ r k, (t.reg r).getLsbD k =
        if r = x then (s.reg x).getLsbD k || (s.reg y).getLsbD k else (s.reg r).getLsbD k) ∧
    decodeWord (0x8#4 ++ x ++ y ++ 0x2#4) = .ok (.andReg x y) ∧
    (∃ t, exec (.andReg x y) s = .next t ∧ t = { s with v := t.v } ∧
      ∀ r k, (t.reg r).getLsbD k =
        if r = x then (s.reg x).getLsbD k && (s.reg y).getLsbD k else (s.reg r).getLsbD k) ∧
    decodeWord (0x8#4 ++ x ++ y ++ 0x3#4) = .ok (.xorReg x y) ∧
    (∃ t, exec (.xorReg x y) s = .next t ∧ t = { s with v := t.v } ∧
      ∀ r k, (t.reg r).getLsbD k =
        if r = x then ((s.reg x).getLsbD k != (s.reg y).getLsbD k) else (s.reg r).getLsbD k)

/-- R201: add registers; VF is the carry, also when x = F. -/
def Obligations.AddRegistersSetsCarry : Prop :=
  ∀ (s : State) (x y : Nibble),
    decodeWord (0x8#4 ++ x ++ y ++ 0x4#4) = .ok (.addReg x y) ∧
    ∃ t, exec (.addReg x y) s = .next t ∧ t = { s with v := t.v } ∧
      ∀ r, (t.reg r).toNat =
        if r = 0xF#4 then (if 0x100 ≤ (s.reg x).toNat + (s.reg y).toNat then 1 else 0)
        else if r = x then ((s.reg x).toNat + (s.reg y).toNat) % 256
        else (s.reg r).toNat

/-- R203: subtract; VF is no-borrow, also when x = F. -/
def Obligations.SubtractSetsNoBorrow : Prop :=
  ∀ (s : State) (x y : Nibble),
    decodeWord (0x8#4 ++ x ++ y ++ 0x5#4) = .ok (.subReg x y) ∧
    ∃ t, exec (.subReg x y) s = .next t ∧ t = { s with v := t.v } ∧
      ∀ r, ((t.reg r).toNat : Int) =
        if r = 0xF#4 then (if (s.reg y).toNat ≤ (s.reg x).toNat then 1 else 0)
        else if r = x then (((s.reg x).toNat : Int) - (s.reg y).toNat) % 256
        else (s.reg r).toNat

/-- R205: reverse subtract; VF is no-borrow, also when x = F. -/
def Obligations.ReverseSubtractSetsNoBorrow : Prop :=
  ∀ (s : State) (x y : Nibble),
    decodeWord (0x8#4 ++ x ++ y ++ 0x7#4) = .ok (.subnReg x y) ∧
    ∃ t, exec (.subnReg x y) s = .next t ∧ t = { s with v := t.v } ∧
      ∀ r, ((t.reg r).toNat : Int) =
        if r = 0xF#4 then (if (s.reg x).toNat ≤ (s.reg y).toNat then 1 else 0)
        else if r = x then (((s.reg y).toNat : Int) - (s.reg x).toNat) % 256
        else (s.reg r).toNat

/-- R208: shift right of Vy (legacy) or Vx (revised); VF is the bit shifted out, also when x = F. -/
def Obligations.ShiftRightByQuirk : Prop :=
  ∀ (s : State) (x y z : Nibble),
    decodeWord (0x8#4 ++ x ++ y ++ 0x6#4) = .ok (.shr x y) ∧
    (z = (if s.quirks.shiftVy then y else x) →
      ∃ t, exec (.shr x y) s = .next t ∧ t = { s with v := t.v } ∧
        ∀ r, (t.reg r).toNat =
          if r = 0xF#4 then (s.reg z).toNat % 2
          else if r = x then (s.reg z).toNat / 2
          else (s.reg r).toNat)

/-- R211: shift left of Vy (legacy) or Vx (revised); VF is the bit shifted out, also when x = F. -/
def Obligations.ShiftLeftByQuirk : Prop :=
  ∀ (s : State) (x y z : Nibble),
    decodeWord (0x8#4 ++ x ++ y ++ 0xE#4) = .ok (.shl x y) ∧
    (z = (if s.quirks.shiftVy then y else x) →
      ∃ t, exec (.shl x y) s = .next t ∧ t = { s with v := t.v } ∧
        ∀ r, (t.reg r).toNat =
          if r = 0xF#4 then (s.reg z).toNat / 128
          else if r = x then (s.reg z).toNat * 2 % 256
          else (s.reg r).toNat)

/-- The masked draw of R215. That the draw is the free byte of this draw's number and that the counter of draws advances are
the model's choice (log entries 5 and 7). -/
def Obligations.RandomByteIsMasked : Prop :=
  ∀ (s : State) (x : Nibble) (nn : Byte),
    decodeWord (0xC#4 ++ x ++ nn) = .ok (.rnd x nn) ∧
    ∃ t, exec (.rnd x nn) s = .next t ∧ t = { s with v := t.v, draws := s.draws + 1 } ∧
      ∀ r k, (t.reg r).getLsbD k =
        if r = x then (Config.randomByte s.draws).getLsbD k && nn.getLsbD k else (s.reg r).getLsbD k

/-! ### Index register and memory transfer -/

/-- R230: load index, for every address; no report can be made. -/
def Obligations.LoadIndexSetsIndex : Prop :=
  ∀ (s : State) (nnn : Addr12),
    decodeWord (0xA#4 ++ nnn) = .ok (.ldI nnn) ∧
    ∃ t, exec (.ldI nnn) s = .next t ∧ t = { s with i := t.i } ∧ t.i.toNat = nnn.toNat

/-- R232, R233: add to index; VF is the overflow past 0x0FFF, also when x = F; the width is the instance's FX1E_WRAP. -/
def Obligations.AddToIndexSetsOverflow : Prop :=
  ∀ (s : State) (x : Nibble),
    decodeWord (0xF#4 ++ x ++ 0x1E#8) = .ok (.addI x) ∧
    ∃ t, exec (.addI x) s = .next t ∧ t = { s with v := t.v, i := t.i } ∧
      t.i.toNat = (s.i.toNat + (s.reg x).toNat) % (match s.fx1eWrap with | .full16 => 2 ^ 16 | .mask12 => 2 ^ 12) ∧
      ∀ r, (t.reg r).toNat =
        if r = 0xF#4 then (if 0x1000 ≤ s.i.toNat + (s.reg x).toNat then 1 else 0) else (s.reg r).toNat

/-- R236: the glyph address is five times the whole register. -/
def Obligations.GlyphAddressIsFiveTimesVx : Prop :=
  ∀ (s : State) (x : Nibble),
    decodeWord (0xF#4 ++ x ++ 0x29#8) = .ok (.ldF x) ∧
    ∃ t, exec (.ldF x) s = .next t ∧ t = { s with i := t.i } ∧ t.i.toNat = (s.reg x).toNat * 5

/-- R240: the decimal digits to I, I+1, I+2, all other bytes as before; or a report and no write. -/
def Obligations.DecimalDigitsAreStoredOrReported : Prop :=
  ∀ (s : State) (x : Nibble),
    decodeWord (0xF#4 ++ x ++ 0x33#8) = .ok (.ldB x) ∧
    (0x1000 ≤ s.i.toNat + 2 →
      exec (.ldB x) s = .next { s with
        log := s.log ++ [⟨.memoryRange, s.pc - 2, some (0xF#4 ++ x ++ 0x33#8), max s.i.toNat 0x1000⟩] }) ∧
    (s.i.toNat ≤ 0x04F →
      exec (.ldB x) s = .next { s with
        log := s.log ++ [⟨.romWrite, s.pc - 2, some (0xF#4 ++ x ++ 0x33#8), s.i.toNat⟩] }) ∧
    (0x050 ≤ s.i.toNat → s.i.toNat + 2 < 0x1000 → s.MemoryOk →
      ∃ t, exec (.ldB x) s = .next t ∧ t = { s with mem := t.mem } ∧
        (t.mem.read s.i.toNat).toNat = (s.reg x).toNat / 100 ∧
        (t.mem.read (s.i.toNat + 1)).toNat = (s.reg x).toNat / 10 % 10 ∧
        (t.mem.read (s.i.toNat + 2)).toNat = (s.reg x).toNat % 10 ∧
        ∀ a, (a < s.i.toNat ∨ s.i.toNat + 2 < a) → t.mem.read a = s.mem.read a)

/-- R250: V0..Vx to I..I+x, all other bytes as before, and the legacy increment; or a report and no write. -/
def Obligations.RegisterBlockIsStoredOrReported : Prop :=
  ∀ (s : State) (x : Nibble),
    decodeWord (0xF#4 ++ x ++ 0x55#8) = .ok (.storeRegs x) ∧
    (0x1000 ≤ s.i.toNat + x.toNat →
      exec (.storeRegs x) s = .next { s with
        log := s.log ++ [⟨.memoryRange, s.pc - 2, some (0xF#4 ++ x ++ 0x55#8), max s.i.toNat 0x1000⟩] }) ∧
    (s.i.toNat ≤ 0x04F →
      exec (.storeRegs x) s = .next { s with
        log := s.log ++ [⟨.romWrite, s.pc - 2, some (0xF#4 ++ x ++ 0x55#8), s.i.toNat⟩] }) ∧
    (0x050 ≤ s.i.toNat → s.i.toNat + x.toNat < 0x1000 → s.MemoryOk →
      ∃ t, exec (.storeRegs x) s = .next t ∧ t = { s with mem := t.mem, i := t.i } ∧
        (∀ r : Nibble, r.toNat ≤ x.toNat → t.mem.read (s.i.toNat + r.toNat) = s.reg r) ∧
        (∀ a, (a < s.i.toNat ∨ s.i.toNat + x.toNat < a) → t.mem.read a = s.mem.read a) ∧
        t.i.toNat = if s.quirks.loadStoreInc then s.i.toNat + x.toNat + 1 else s.i.toNat)

/-- R253: V0..Vx from I..I+x, and the legacy increment; or a report and no register written. -/
def Obligations.RegisterBlockIsLoadedOrReported : Prop :=
  ∀ (s : State) (x : Nibble),
    decodeWord (0xF#4 ++ x ++ 0x65#8) = .ok (.loadRegs x) ∧
    (0x1000 ≤ s.i.toNat + x.toNat →
      exec (.loadRegs x) s = .next { s with
        log := s.log ++ [⟨.memoryRange, s.pc - 2, some (0xF#4 ++ x ++ 0x65#8), max s.i.toNat 0x1000⟩] }) ∧
    (s.i.toNat + x.toNat < 0x1000 →
      ∃ t, exec (.loadRegs x) s = .next t ∧ t = { s with v := t.v, i := t.i } ∧
        (∀ r : Nibble, t.reg r = if r.toNat ≤ x.toNat then s.mem.read (s.i.toNat + r.toNat) else s.reg r) ∧
        t.i.toNat = if s.quirks.loadStoreInc then s.i.toNat + x.toNat + 1 else s.i.toNat)

/-- The spec's inference in R254: a store, I moved back, then a load gives V0..Vx again, whatever the registers held between. -/
def Obligations.StoreThenLoadRestoresRegisters : Prop :=
  ∀ (s t u : State) (x : Nibble), s.MemoryOk → 0x050 ≤ s.i.toNat → s.i.toNat + x.toNat < 0x1000 →
    exec (.storeRegs x) s = .next t → u.mem = t.mem → u.i = s.i →
    ∃ w, exec (.loadRegs x) u = .next w ∧ ∀ r : Nibble, r.toNat ≤ x.toNat → w.reg r = s.reg r

/-! ### Display -/

/-- R260: CLS turns every pixel off and changes nothing else. -/
def Obligations.ClearTurnsEveryPixelOff : Prop :=
  decodeWord 0x00E0 = .ok .cls ∧
  ∀ s : State, ∃ t, exec .cls s = .next t ∧ t = { s with display := t.display } ∧
    ∀ c < 64, ∀ r < 32, Display.get t.display c r = false

/-- R263: each on-screen pixel of the sprite flips, no other pixel changes, VF is the collision, and nothing else changes;
or a report of the lowest bad address when one of the n sprite bytes is out of range. -/
def Obligations.DrawFlipsTheSpritePixels : Prop :=
  ∀ (s : State) (x y n : Nibble),
    decodeWord (0xD#4 ++ x ++ y ++ n) = .ok (.drw x y n) ∧
    (0 < n.toNat → 0x1000 < s.i.toNat + n.toNat →
      exec (.drw x y n) s = .next { s with
        log := s.log ++ [⟨.memoryRange, s.pc - 2, some (0xD#4 ++ x ++ y ++ n), max s.i.toNat 0x1000⟩] }) ∧
    ((n.toNat = 0 ∨ s.i.toNat + n.toNat ≤ 0x1000) →
      ∃ t, exec (.drw x y n) s = .next t ∧ t = { s with v := t.v, display := t.display } ∧
        (∀ c < 64, ∀ r < 32, s.spriteCovers x y n c r → Display.get t.display c r = !Display.get s.display c r) ∧
        (∀ c < 64, ∀ r < 32, ¬ s.spriteCovers x y n c r → Display.get t.display c r = Display.get s.display c r) ∧
        (∀ r : Nibble, r ≠ 0xF#4 → t.reg r = s.reg r) ∧
        (s.spriteCollides x y n → t.reg 0xF#4 = 1) ∧
        (¬ s.spriteCollides x y n → t.reg 0xF#4 = 0))

/-- R267: with n = 0 a draw draws nothing, reads no memory, makes no report and clears VF, whatever I is. -/
def Obligations.EmptySpriteOnlyClearsVf : Prop :=
  ∀ (s : State) (x y : Nibble),
    ∃ t, exec (.drw x y 0x0#4) s = .next t ∧ t = { s with v := t.v } ∧
      ∀ r, t.reg r = if r = 0xF#4 then 0 else s.reg r

/-- From R266: the same sprite drawn twice at the same position restores the display, and VF is 1 after the second draw
when some on-screen sprite pixel was off before the first. -/
def Obligations.DrawingTwiceRestoresTheDisplay : Prop :=
  ∀ (s t u : State) (x y n : Nibble), (n.toNat = 0 ∨ s.i.toNat + n.toNat ≤ 0x1000) →
    exec (.drw x y n) s = .next t →
    u.mem = s.mem → u.i = s.i → u.display = t.display → u.reg x = s.reg x → u.reg y = s.reg y →
    ∃ w, exec (.drw x y n) u = .next w ∧
      (∀ c < 64, ∀ r < 32, Display.get w.display c r = Display.get s.display c r) ∧
      ((∃ c < 64, ∃ r < 32, s.spriteCovers x y n c r ∧ Display.get s.display c r = false) → w.reg 0xF#4 = 1)

/-! ### Keypad and timers -/

/-- R280, R281, R283: the key skips, and KEY_RANGE for an index of 16 or more. -/
def Obligations.KeySkips : Prop :=
  ∀ (s : State) (x : Nibble),
    decodeWord (0xE#4 ++ x ++ 0x9E#8) = .ok (.skp x) ∧ decodeWord (0xE#4 ++ x ++ 0xA1#8) = .ok (.sknp x) ∧
    (16 ≤ (s.reg x).toNat →
      exec (.skp x) s = .next { s with
        log := s.log ++ [⟨.keyRange, s.pc - 2, some (0xE#4 ++ x ++ 0x9E#8), (s.reg x).toNat⟩] } ∧
      exec (.sknp x) s = .next { s with
        log := s.log ++ [⟨.keyRange, s.pc - 2, some (0xE#4 ++ x ++ 0xA1#8), (s.reg x).toNat⟩] }) ∧
    (∀ h : (s.reg x).toNat < 16,
      exec (.skp x) s = .next { s with pc := if s.keys[(s.reg x).toNat] = true then s.pc + 2 else s.pc } ∧
      exec (.sknp x) s = .next { s with pc := if s.keys[(s.reg x).toNat] = false then s.pc + 2 else s.pc })

/-- The wait of R286: PC back at PC_fetch and nothing else with no key pressed, else V[x] is the index of some pressed key (of
several a free one, log entry 6). That the counter of free values advances is the model's choice (log entry 7). -/
def Obligations.KeyWaitRewindsOrStoresAKey : Prop :=
  ∀ (s : State) (x : Nibble),
    decodeWord (0xF#4 ++ x ++ 0x0A#8) = .ok (.ldVxK x) ∧
    ((∀ k, (h : k < 16) → s.keys[k] = false) → exec (.ldVxK x) s = .next { s with pc := s.pc - 2 }) ∧
    ((∃ k, ∃ h : k < 16, s.keys[k] = true) →
      ∃ t k, ∃ h : k < 16, exec (.ldVxK x) s = .next t ∧ t = { s with v := t.v, draws := s.draws + 1 } ∧
        s.keys[k] = true ∧ ∀ r, (t.reg r).toNat = if r = x then k else (s.reg r).toNat)

/-- R290, R292, R294: the timer transfers. -/
def Obligations.TimerTransfers : Prop :=
  ∀ (s : State) (x : Nibble),
    decodeWord (0xF#4 ++ x ++ 0x07#8) = .ok (.ldVxDt x) ∧
    (∃ t, exec (.ldVxDt x) s = .next t ∧ t = { s with v := t.v } ∧ ∀ r, t.reg r = if r = x then s.dt else s.reg r) ∧
    decodeWord (0xF#4 ++ x ++ 0x15#8) = .ok (.ldDtVx x) ∧
    exec (.ldDtVx x) s = .next { s with dt := s.reg x } ∧
    decodeWord (0xF#4 ++ x ++ 0x18#8) = .ok (.ldStVx x) ∧
    exec (.ldStVx x) s = .next { s with st := s.reg x }

/-- R296: a tick takes one from each timer that is above 0 and changes nothing else, halted or not. -/
def Obligations.TickCountsBothTimersDown : Prop :=
  ∀ s : State, ∃ t, transact .tick s = .next t ∧ t = { s with dt := t.dt, st := t.st } ∧
    t.dt.toNat = s.dt.toNat - 1 ∧ t.st.toNat = s.st.toNat - 1

/-! ### Program load and construction -/

/-- R110, R111, R112: an image of 1 to 3584 bytes is copied to 0x200 and nothing else changes; a longer, an empty or an
unopenable one is reported and nothing is written. -/
def Obligations.LoadCopiesTheImageOrReports : Prop :=
  ∀ (s : State) (image : List Byte),
    (imageWellFormed image = true → s.MemoryOk →
      ∃ t, transact (.load (some image)) s = .next t ∧ t = { s with mem := t.mem } ∧
        (∀ k, (h : k < image.length) → t.mem.read (0x200 + k) = image[k]) ∧
        (∀ a, (a < 0x200 ∨ 0x200 + image.length ≤ a) → t.mem.read a = s.mem.read a)) ∧
    (0xE00 < image.length →
      transact (.load (some image)) s =
        .next { s with log := s.log ++ [⟨.loadTooLarge, s.pc, none, image.length⟩] }) ∧
    (image = [] →
      transact (.load (some image)) s = .next { s with log := s.log ++ [⟨.loadEmpty, s.pc, none, 0⟩] }) ∧
    transact (.load none) s = .next { s with log := s.log ++ [⟨.loadEmpty, s.pc, none, 0⟩] }

/-- R75: the state construction leaves, for every FONT, PC_RESET and setting of the switches. -/
def Obligations.ConstructionZeroesEverythingButFontAndPc : Prop :=
  ∀ p : Construction,
    let s := State.construct p
    (∀ a, (h : a < 80) → s.mem.read a = p.font[a]) ∧ (∀ a, 0x050 ≤ a → a < 0x1000 → s.mem.read a = 0) ∧
    (∀ r, s.reg r = 0) ∧ s.i = 0 ∧ s.pc = p.pcReset ∧ s.sp = 0 ∧ (∀ k < 16, s.stackEntry k = 0) ∧
    s.dt = 0 ∧ s.st = 0 ∧ (∀ c < 64, ∀ r < 32, Display.get s.display c r = false) ∧
    (∀ k, (h : k < 16) → s.keys[k] = false) ∧ s.quirks = p.quirks ∧ s.halted = false ∧ s.log = []

/-- The model's reset state is the construction with the recommended FONT and PC_RESET (log entries 1 to 4). -/
def Obligations.ResetIsTheRecommendedConstruction : Prop :=
  ∃ p : Construction, p.pcReset = 0x200 ∧ p.font.toList = Config.font ∧ State.construct p = State.reset

/-! ### Invariants and whole-machine rules -/

/-- Every transaction keeps memory canonical: no cell outside 0x000..0xFFF ever appears. -/
def Obligations.TransactionsKeepMemoryCanonical : Prop :=
  ∀ (a : Transaction) (s t : State), s.MemoryOk → transact a s = .next t → t.MemoryOk

/-- R42: SP stays at most 16, and only CALL and RET change it. -/
def Obligations.StackPointerStaysWithinDepth : Prop :=
  ∀ (i : Instr) (s t : State), exec i s = .next t →
    (s.StackPointerOk → t.StackPointerOk) ∧
    (t.sp ≠ s.sp → i = .ret ∧ t.sp.toNat + 1 = s.sp.toNat ∨ ∃ nnn, i = .call nnn ∧ t.sp.toNat = s.sp.toNat + 1)

/-- The spec's inference in R41: PC stays at most 0x1002, under the invariant that bounds the stack entries too. -/
def Obligations.StepKeepsPcBounded : Prop :=
  ∀ s t : State, s.PcBounded → step s = .next t → t.PcBounded

/-- The invariant holds after every run of transactions, in whatever order the host chooses them, from every state that
meets it; and no such run faults or is refused. -/
def Obligations.RunsKeepTheInvariantAndNeverStop : Prop :=
  ∀ (as : List Transaction) (s : State), s.Inv → ∃ t, transactAll as s = .next t ∧ t.Inv

/-- The reset state, and every construction with PC_RESET at most 0x1002, meets the invariant. -/
def Obligations.ConstructionMeetsTheInvariant : Prop :=
  State.reset.Inv ∧ ∀ p : Construction, p.pcReset.toNat ≤ 0x1002 → (State.construct p).Inv

/-- With SP at most 16 a step always answers a next state: no instruction and no word stops the machine. -/
def Obligations.StepAlwaysAnswersANextState : Prop :=
  ∀ s : State, s.StackPointerOk → ∃ t, step s = .next t

/-- The spec's inference in R91: the 80 font bytes stay unchanged under every transaction, whatever they hold. -/
def Obligations.FontRomIsImmutable : Prop :=
  ∀ (a : Transaction) (s t : State), transact a s = .next t → ∀ k < 80, t.mem.read k = s.mem.read k

/-- R70: once halted, no transaction clears it and a step changes nothing; and only a fetch failure halts. -/
def Obligations.HaltedIsFinalAndOnlyFetchHalts : Prop :=
  ∀ (a : Transaction) (s t : State), transact a s = .next t →
    (s.halted = true → t.halted = true ∧ (a = .step → t = s)) ∧
    (s.halted = false → t.halted = true → a = .step ∧ 0x0FFF ≤ s.pc.toNat)

/-- R71, R315: the log only grows, at its end, and by at most one report a transaction. -/
def Obligations.LogGrowsByAtMostOneReport : Prop :=
  ∀ (a : Transaction) (s t : State), transact a s = .next t → t.log = s.log ∨ ∃ r, t.log = s.log ++ [r]

/-- R303: a step that reports changes nothing but the log and PC, and PC only by fetch's advance; FETCH_RANGE alone halts
and leaves PC. The report names the fetch address. -/
def Obligations.ReportsArePrecise : Prop :=
  ∀ (s t : State) (r : Report), step s = .next t → t.log = s.log ++ [r] →
    r.pc = s.pc ∧
    ((r.code = .fetchRange ∧ t = { s with log := t.log, halted := true }) ∨
     (r.code ≠ .fetchRange ∧ r.word = some s.fetchWord ∧ t = { s with log := t.log, pc := s.pc + 2 }))

/-- R49: only CLS and DRW change the display. -/
def Obligations.OnlyDisplayInstructionsChangeTheDisplay : Prop :=
  ∀ (i : Instr) (s t : State), exec i s = .next t → t.display ≠ s.display → i = .cls ∨ ∃ x y n, i = .drw x y n

/-- R84: of the instructions, only Fx33 and Fx55 change memory. -/
def Obligations.OnlyBlockStoresChangeMemory : Prop :=
  ∀ (i : Instr) (s t : State), exec i s = .next t → t.mem ≠ s.mem → (∃ x, i = .ldB x) ∨ ∃ x, i = .storeRegs x

/-- R32, R33: a register changes only as the register a destination field names, or, for VF, by the instructions that
write VF as a flag. -/
def Obligations.OnlyNamedRegistersAndTheFlagChange : Prop :=
  ∀ (i : Instr) (s t : State) (r : Nibble), exec i s = .next t → t.reg r ≠ s.reg r →
    namesDestination r i = true ∨ (r = 0xF#4 ∧ writesFlag i = true)

/-- R50, R62: no step changes the keypad state, the quirk switches or FX1E_WRAP. -/
def Obligations.StepKeepsKeysAndSwitches : Prop :=
  ∀ s t : State, step s = .next t → t.keys = s.keys ∧ t.quirks = s.quirks ∧ t.fx1eWrap = s.fx1eWrap

/-- R46, R47: a step changes DT only by Fx15 and ST only by Fx18. -/
def Obligations.OnlyTimerInstructionsChangeTimers : Prop :=
  ∀ (i : Instr) (s t : State), exec i s = .next t →
    (t.dt ≠ s.dt → ∃ x, i = .ldDtVx x) ∧ (t.st ≠ s.st → ∃ x, i = .ldStVx x)

/-- R301: the program cannot read the log: with another log a step does the same, but for the log. -/
def Obligations.ProgramsCannotReadTheLog : Prop :=
  ∀ (s t : State) (l : List Report), step s = .next t → ∃ l', step { s with log := l } = .next { t with log := l' }

/-- R45: stale stack entries cannot be observed: with other entries at and above SP a step does the same, and the entries
below SP again agree. -/
def Obligations.StaleStackEntriesCannotBeObserved : Prop :=
  ∀ (s t : State) (st : Vector Word 16), s.StackPointerOk →
    (∀ k < s.sp.toNat, (st[k]?).getD 0 = s.stackEntry k) → step s = .next t →
    ∃ st' : Vector Word 16, step { s with stack := st } = .next { t with stack := st' } ∧
      ∀ k < t.sp.toNat, (st'[k]?).getD 0 = t.stackEntry k
end

