-- ==== Sys2Proof/Laws/Decode.lean ====
section
/-!
SUPPORT. The fields of a word built from its parts, and a word as its fields (30_encoding.md R122, R123).
-/

namespace Sys2Proof

/-! ### Fields of the layouts of R123 -/

@[simp] theorem fieldFamily_nnn (f : Nibble) (nnn : Addr12) : fieldFamily (f ++ nnn) = f := by
  unfold fieldFamily; grind
@[simp] theorem fieldNNN_nnn (f : Nibble) (nnn : Addr12) : fieldNNN (f ++ nnn) = nnn := by
  unfold fieldNNN; grind
@[simp] theorem fieldFamily_xnn (f x : Nibble) (nn : Byte) : fieldFamily (f ++ x ++ nn) = f := by
  unfold fieldFamily; grind
@[simp] theorem fieldX_xnn (f x : Nibble) (nn : Byte) : fieldX (f ++ x ++ nn) = x := by
  unfold fieldX; grind
@[simp] theorem fieldNN_xnn (f x : Nibble) (nn : Byte) : fieldNN (f ++ x ++ nn) = nn := by
  unfold fieldNN; grind
@[simp] theorem fieldFamily_xyn (f x y n : Nibble) : fieldFamily (f ++ x ++ y ++ n) = f := by
  unfold fieldFamily; grind
@[simp] theorem fieldX_xyn (f x y n : Nibble) : fieldX (f ++ x ++ y ++ n) = x := by
  unfold fieldX; grind
@[simp] theorem fieldY_xyn (f x y n : Nibble) : fieldY (f ++ x ++ y ++ n) = y := by
  unfold fieldY; grind
@[simp] theorem fieldN_xyn (f x y n : Nibble) : fieldN (f ++ x ++ y ++ n) = n := by
  unfold fieldN; grind

/-! ### A word as its fields -/

theorem word_eq_nnn (w : Word) : fieldFamily w ++ fieldNNN w = w := by
  unfold fieldFamily fieldNNN; grind
theorem word_eq_xnn (w : Word) : fieldFamily w ++ fieldX w ++ fieldNN w = w := by
  unfold fieldFamily fieldX fieldNN; grind
theorem word_eq_xyn (w : Word) : fieldFamily w ++ fieldX w ++ fieldY w ++ fieldN w = w := by
  unfold fieldFamily fieldX fieldY fieldN; grind

/-- The bytes of a word, put together again, give the word (20_memory.md R92). -/
theorem wordOfBytes_bytesOfWord (w : Word) : wordOfBytes (w.extractLsb' 8 8) (w.extractLsb' 0 8) = w := by
  unfold wordOfBytes; grind

/-- One branch of a decoding chain at a time. -/
theorem ite_elim {α : Type} {c : Prop} [Decidable c] {a b r : α} {P : Prop} (h : (if c then a else b) = r)
    (yes : c → a = r → P) (no : ¬c → b = r → P) : P := by
  by_cases hc : c
  · exact yes hc (by simpa only [if_pos hc] using h)
  · exact no hc (by simpa only [if_neg hc] using h)

theorem decodeFamily0_error {w : Word} {e : DecodeError} (h : decodeFamily0 w = .error e) : e = .unknown w := by
  unfold decodeFamily0 at h
  iterate 2 refine ite_elim h (fun _ h => nomatch h) (fun _ h => ?_)
  cases h; rfl

theorem decodeFamily8_error {w : Word} {e : DecodeError} (h : decodeFamily8 w = .error e) : e = .unknown w := by
  unfold decodeFamily8 at h
  iterate 9 refine ite_elim h (fun _ h => nomatch h) (fun _ h => ?_)
  cases h; rfl

theorem decodeFamilyE_error {w : Word} {e : DecodeError} (h : decodeFamilyE w = .error e) : e = .unknown w := by
  unfold decodeFamilyE at h
  iterate 2 refine ite_elim h (fun _ h => nomatch h) (fun _ h => ?_)
  cases h; rfl

theorem decodeFamilyF_error {w : Word} {e : DecodeError} (h : decodeFamilyF w = .error e) : e = .unknown w := by
  unfold decodeFamilyF at h
  iterate 9 refine ite_elim h (fun _ h => nomatch h) (fun _ h => ?_)
  cases h; rfl

/-- The word's low nibble is not the one of 5xy0 and 9xy0 (30_encoding.md R137). -/
theorem strict_nibble_error {c : Prop} [Decidable c] {w : Word} {i : Instr} {e : DecodeError}
    (h : (if c then .ok i else .error (.unknown w) : Except DecodeError Instr) = .error e) : e = .unknown w :=
  ite_elim h (fun _ h => nomatch h) (fun _ h => by cases h; rfl)

/-- The decoder's only rejection of a word is UNKNOWN, with the word (30_encoding.md R141). -/
theorem decodeWord_error {w : Word} {e : DecodeError} (h : decodeWord w = .error e) : e = .unknown w := by
  unfold decodeWord at h
  refine ite_elim h (fun _ h => decodeFamily0_error h) (fun _ h => ?_)
  iterate 4 refine ite_elim h (fun _ h => nomatch h) (fun _ h => ?_)
  refine ite_elim h (fun _ h => strict_nibble_error h) (fun _ h => ?_)
  iterate 2 refine ite_elim h (fun _ h => nomatch h) (fun _ h => ?_)
  refine ite_elim h (fun _ h => decodeFamily8_error h) (fun _ h => ?_)
  refine ite_elim h (fun _ h => strict_nibble_error h) (fun _ h => ?_)
  iterate 4 refine ite_elim h (fun _ h => nomatch h) (fun _ h => ?_)
  exact ite_elim h (fun _ h => decodeFamilyE_error h) (fun _ h => decodeFamilyF_error h)

end Sys2Proof
end

