-- ==== Sys2Proof/Laws/State.lean ====
section
/-!
SUPPORT. What each state update does to each field, one lemma per field per update, so that no proof unfolds an update.
-/

namespace Sys2Proof.Machine

/-! ### setReg -/

@[simp] theorem State.setReg_mem (s : State) (x : Nibble) (b : Byte) : (s.setReg x b).mem = s.mem := rfl
@[simp] theorem State.setReg_v (s : State) (x : Nibble) (b : Byte) :
    (s.setReg x b).v = s.v.set x.toNat b x.isLt := rfl
@[simp] theorem State.setReg_i (s : State) (x : Nibble) (b : Byte) : (s.setReg x b).i = s.i := rfl
@[simp] theorem State.setReg_pc (s : State) (x : Nibble) (b : Byte) : (s.setReg x b).pc = s.pc := rfl
@[simp] theorem State.setReg_sp (s : State) (x : Nibble) (b : Byte) : (s.setReg x b).sp = s.sp := rfl
@[simp] theorem State.setReg_stack (s : State) (x : Nibble) (b : Byte) : (s.setReg x b).stack = s.stack := rfl
@[simp] theorem State.setReg_dt (s : State) (x : Nibble) (b : Byte) : (s.setReg x b).dt = s.dt := rfl
@[simp] theorem State.setReg_st (s : State) (x : Nibble) (b : Byte) : (s.setReg x b).st = s.st := rfl
@[simp] theorem State.setReg_display (s : State) (x : Nibble) (b : Byte) : (s.setReg x b).display = s.display := rfl
@[simp] theorem State.setReg_keys (s : State) (x : Nibble) (b : Byte) : (s.setReg x b).keys = s.keys := rfl
@[simp] theorem State.setReg_quirks (s : State) (x : Nibble) (b : Byte) : (s.setReg x b).quirks = s.quirks := rfl
@[simp] theorem State.setReg_halted (s : State) (x : Nibble) (b : Byte) : (s.setReg x b).halted = s.halted := rfl
@[simp] theorem State.setReg_log (s : State) (x : Nibble) (b : Byte) : (s.setReg x b).log = s.log := rfl
@[simp] theorem State.setReg_fx1eWrap (s : State) (x : Nibble) (b : Byte) : (s.setReg x b).fx1eWrap = s.fx1eWrap := rfl
@[simp] theorem State.setReg_draws (s : State) (x : Nibble) (b : Byte) : (s.setReg x b).draws = s.draws := rfl

/-! ### setFlag -/

@[simp] theorem State.setFlag_mem (s : State) (f : Bool) : (s.setFlag f).mem = s.mem := rfl
@[simp] theorem State.setFlag_v (s : State) (f : Bool) :
    (s.setFlag f).v = s.v.set 15 (flagByte f) := rfl
@[simp] theorem State.setFlag_i (s : State) (f : Bool) : (s.setFlag f).i = s.i := rfl
@[simp] theorem State.setFlag_pc (s : State) (f : Bool) : (s.setFlag f).pc = s.pc := rfl
@[simp] theorem State.setFlag_sp (s : State) (f : Bool) : (s.setFlag f).sp = s.sp := rfl
@[simp] theorem State.setFlag_stack (s : State) (f : Bool) : (s.setFlag f).stack = s.stack := rfl
@[simp] theorem State.setFlag_dt (s : State) (f : Bool) : (s.setFlag f).dt = s.dt := rfl
@[simp] theorem State.setFlag_st (s : State) (f : Bool) : (s.setFlag f).st = s.st := rfl
@[simp] theorem State.setFlag_display (s : State) (f : Bool) : (s.setFlag f).display = s.display := rfl
@[simp] theorem State.setFlag_keys (s : State) (f : Bool) : (s.setFlag f).keys = s.keys := rfl
@[simp] theorem State.setFlag_quirks (s : State) (f : Bool) : (s.setFlag f).quirks = s.quirks := rfl
@[simp] theorem State.setFlag_halted (s : State) (f : Bool) : (s.setFlag f).halted = s.halted := rfl
@[simp] theorem State.setFlag_log (s : State) (f : Bool) : (s.setFlag f).log = s.log := rfl
@[simp] theorem State.setFlag_fx1eWrap (s : State) (f : Bool) : (s.setFlag f).fx1eWrap = s.fx1eWrap := rfl
@[simp] theorem State.setFlag_draws (s : State) (f : Bool) : (s.setFlag f).draws = s.draws := rfl

/-! ### setRegThenFlag -/

@[simp] theorem State.setRegThenFlag_mem (s : State) (x : Nibble) (b : Byte) (f : Bool) : (s.setRegThenFlag x b f).mem = s.mem := rfl
@[simp] theorem State.setRegThenFlag_v (s : State) (x : Nibble) (b : Byte) (f : Bool) :
    (s.setRegThenFlag x b f).v = (s.v.set x.toNat b x.isLt).set 15 (flagByte f) := rfl
@[simp] theorem State.setRegThenFlag_i (s : State) (x : Nibble) (b : Byte) (f : Bool) : (s.setRegThenFlag x b f).i = s.i := rfl
@[simp] theorem State.setRegThenFlag_pc (s : State) (x : Nibble) (b : Byte) (f : Bool) : (s.setRegThenFlag x b f).pc = s.pc := rfl
@[simp] theorem State.setRegThenFlag_sp (s : State) (x : Nibble) (b : Byte) (f : Bool) : (s.setRegThenFlag x b f).sp = s.sp := rfl
@[simp] theorem State.setRegThenFlag_stack (s : State) (x : Nibble) (b : Byte) (f : Bool) : (s.setRegThenFlag x b f).stack = s.stack := rfl
@[simp] theorem State.setRegThenFlag_dt (s : State) (x : Nibble) (b : Byte) (f : Bool) : (s.setRegThenFlag x b f).dt = s.dt := rfl
@[simp] theorem State.setRegThenFlag_st (s : State) (x : Nibble) (b : Byte) (f : Bool) : (s.setRegThenFlag x b f).st = s.st := rfl
@[simp] theorem State.setRegThenFlag_display (s : State) (x : Nibble) (b : Byte) (f : Bool) : (s.setRegThenFlag x b f).display = s.display := rfl
@[simp] theorem State.setRegThenFlag_keys (s : State) (x : Nibble) (b : Byte) (f : Bool) : (s.setRegThenFlag x b f).keys = s.keys := rfl
@[simp] theorem State.setRegThenFlag_quirks (s : State) (x : Nibble) (b : Byte) (f : Bool) : (s.setRegThenFlag x b f).quirks = s.quirks := rfl
@[simp] theorem State.setRegThenFlag_halted (s : State) (x : Nibble) (b : Byte) (f : Bool) : (s.setRegThenFlag x b f).halted = s.halted := rfl
@[simp] theorem State.setRegThenFlag_log (s : State) (x : Nibble) (b : Byte) (f : Bool) : (s.setRegThenFlag x b f).log = s.log := rfl
@[simp] theorem State.setRegThenFlag_fx1eWrap (s : State) (x : Nibble) (b : Byte) (f : Bool) : (s.setRegThenFlag x b f).fx1eWrap = s.fx1eWrap := rfl
@[simp] theorem State.setRegThenFlag_draws (s : State) (x : Nibble) (b : Byte) (f : Bool) : (s.setRegThenFlag x b f).draws = s.draws := rfl

/-! ### setIndex -/

@[simp] theorem State.setIndex_mem (s : State) (w : Word) : (s.setIndex w).mem = s.mem := rfl
@[simp] theorem State.setIndex_v (s : State) (w : Word) : (s.setIndex w).v = s.v := rfl
@[simp] theorem State.setIndex_i (s : State) (w : Word) :
    (s.setIndex w).i = w := rfl
@[simp] theorem State.setIndex_pc (s : State) (w : Word) : (s.setIndex w).pc = s.pc := rfl
@[simp] theorem State.setIndex_sp (s : State) (w : Word) : (s.setIndex w).sp = s.sp := rfl
@[simp] theorem State.setIndex_stack (s : State) (w : Word) : (s.setIndex w).stack = s.stack := rfl
@[simp] theorem State.setIndex_dt (s : State) (w : Word) : (s.setIndex w).dt = s.dt := rfl
@[simp] theorem State.setIndex_st (s : State) (w : Word) : (s.setIndex w).st = s.st := rfl
@[simp] theorem State.setIndex_display (s : State) (w : Word) : (s.setIndex w).display = s.display := rfl
@[simp] theorem State.setIndex_keys (s : State) (w : Word) : (s.setIndex w).keys = s.keys := rfl
@[simp] theorem State.setIndex_quirks (s : State) (w : Word) : (s.setIndex w).quirks = s.quirks := rfl
@[simp] theorem State.setIndex_halted (s : State) (w : Word) : (s.setIndex w).halted = s.halted := rfl
@[simp] theorem State.setIndex_log (s : State) (w : Word) : (s.setIndex w).log = s.log := rfl
@[simp] theorem State.setIndex_fx1eWrap (s : State) (w : Word) : (s.setIndex w).fx1eWrap = s.fx1eWrap := rfl
@[simp] theorem State.setIndex_draws (s : State) (w : Word) : (s.setIndex w).draws = s.draws := rfl

/-! ### setPc -/

@[simp] theorem State.setPc_mem (s : State) (w : Word) : (s.setPc w).mem = s.mem := rfl
@[simp] theorem State.setPc_v (s : State) (w : Word) : (s.setPc w).v = s.v := rfl
@[simp] theorem State.setPc_i (s : State) (w : Word) : (s.setPc w).i = s.i := rfl
@[simp] theorem State.setPc_pc (s : State) (w : Word) :
    (s.setPc w).pc = w := rfl
@[simp] theorem State.setPc_sp (s : State) (w : Word) : (s.setPc w).sp = s.sp := rfl
@[simp] theorem State.setPc_stack (s : State) (w : Word) : (s.setPc w).stack = s.stack := rfl
@[simp] theorem State.setPc_dt (s : State) (w : Word) : (s.setPc w).dt = s.dt := rfl
@[simp] theorem State.setPc_st (s : State) (w : Word) : (s.setPc w).st = s.st := rfl
@[simp] theorem State.setPc_display (s : State) (w : Word) : (s.setPc w).display = s.display := rfl
@[simp] theorem State.setPc_keys (s : State) (w : Word) : (s.setPc w).keys = s.keys := rfl
@[simp] theorem State.setPc_quirks (s : State) (w : Word) : (s.setPc w).quirks = s.quirks := rfl
@[simp] theorem State.setPc_halted (s : State) (w : Word) : (s.setPc w).halted = s.halted := rfl
@[simp] theorem State.setPc_log (s : State) (w : Word) : (s.setPc w).log = s.log := rfl
@[simp] theorem State.setPc_fx1eWrap (s : State) (w : Word) : (s.setPc w).fx1eWrap = s.fx1eWrap := rfl
@[simp] theorem State.setPc_draws (s : State) (w : Word) : (s.setPc w).draws = s.draws := rfl

/-! ### setDelay -/

@[simp] theorem State.setDelay_mem (s : State) (b : Byte) : (s.setDelay b).mem = s.mem := rfl
@[simp] theorem State.setDelay_v (s : State) (b : Byte) : (s.setDelay b).v = s.v := rfl
@[simp] theorem State.setDelay_i (s : State) (b : Byte) : (s.setDelay b).i = s.i := rfl
@[simp] theorem State.setDelay_pc (s : State) (b : Byte) : (s.setDelay b).pc = s.pc := rfl
@[simp] theorem State.setDelay_sp (s : State) (b : Byte) : (s.setDelay b).sp = s.sp := rfl
@[simp] theorem State.setDelay_stack (s : State) (b : Byte) : (s.setDelay b).stack = s.stack := rfl
@[simp] theorem State.setDelay_dt (s : State) (b : Byte) :
    (s.setDelay b).dt = b := rfl
@[simp] theorem State.setDelay_st (s : State) (b : Byte) : (s.setDelay b).st = s.st := rfl
@[simp] theorem State.setDelay_display (s : State) (b : Byte) : (s.setDelay b).display = s.display := rfl
@[simp] theorem State.setDelay_keys (s : State) (b : Byte) : (s.setDelay b).keys = s.keys := rfl
@[simp] theorem State.setDelay_quirks (s : State) (b : Byte) : (s.setDelay b).quirks = s.quirks := rfl
@[simp] theorem State.setDelay_halted (s : State) (b : Byte) : (s.setDelay b).halted = s.halted := rfl
@[simp] theorem State.setDelay_log (s : State) (b : Byte) : (s.setDelay b).log = s.log := rfl
@[simp] theorem State.setDelay_fx1eWrap (s : State) (b : Byte) : (s.setDelay b).fx1eWrap = s.fx1eWrap := rfl
@[simp] theorem State.setDelay_draws (s : State) (b : Byte) : (s.setDelay b).draws = s.draws := rfl

/-! ### setSound -/

@[simp] theorem State.setSound_mem (s : State) (b : Byte) : (s.setSound b).mem = s.mem := rfl
@[simp] theorem State.setSound_v (s : State) (b : Byte) : (s.setSound b).v = s.v := rfl
@[simp] theorem State.setSound_i (s : State) (b : Byte) : (s.setSound b).i = s.i := rfl
@[simp] theorem State.setSound_pc (s : State) (b : Byte) : (s.setSound b).pc = s.pc := rfl
@[simp] theorem State.setSound_sp (s : State) (b : Byte) : (s.setSound b).sp = s.sp := rfl
@[simp] theorem State.setSound_stack (s : State) (b : Byte) : (s.setSound b).stack = s.stack := rfl
@[simp] theorem State.setSound_dt (s : State) (b : Byte) : (s.setSound b).dt = s.dt := rfl
@[simp] theorem State.setSound_st (s : State) (b : Byte) :
    (s.setSound b).st = b := rfl
@[simp] theorem State.setSound_display (s : State) (b : Byte) : (s.setSound b).display = s.display := rfl
@[simp] theorem State.setSound_keys (s : State) (b : Byte) : (s.setSound b).keys = s.keys := rfl
@[simp] theorem State.setSound_quirks (s : State) (b : Byte) : (s.setSound b).quirks = s.quirks := rfl
@[simp] theorem State.setSound_halted (s : State) (b : Byte) : (s.setSound b).halted = s.halted := rfl
@[simp] theorem State.setSound_log (s : State) (b : Byte) : (s.setSound b).log = s.log := rfl
@[simp] theorem State.setSound_fx1eWrap (s : State) (b : Byte) : (s.setSound b).fx1eWrap = s.fx1eWrap := rfl
@[simp] theorem State.setSound_draws (s : State) (b : Byte) : (s.setSound b).draws = s.draws := rfl

/-! ### advance -/

@[simp] theorem State.advance_mem (s : State) : (s.advance).mem = s.mem := rfl
@[simp] theorem State.advance_v (s : State) : (s.advance).v = s.v := rfl
@[simp] theorem State.advance_i (s : State) : (s.advance).i = s.i := rfl
@[simp] theorem State.advance_pc (s : State) :
    (s.advance).pc = s.pc + 2 := rfl
@[simp] theorem State.advance_sp (s : State) : (s.advance).sp = s.sp := rfl
@[simp] theorem State.advance_stack (s : State) : (s.advance).stack = s.stack := rfl
@[simp] theorem State.advance_dt (s : State) : (s.advance).dt = s.dt := rfl
@[simp] theorem State.advance_st (s : State) : (s.advance).st = s.st := rfl
@[simp] theorem State.advance_display (s : State) : (s.advance).display = s.display := rfl
@[simp] theorem State.advance_keys (s : State) : (s.advance).keys = s.keys := rfl
@[simp] theorem State.advance_quirks (s : State) : (s.advance).quirks = s.quirks := rfl
@[simp] theorem State.advance_halted (s : State) : (s.advance).halted = s.halted := rfl
@[simp] theorem State.advance_log (s : State) : (s.advance).log = s.log := rfl
@[simp] theorem State.advance_fx1eWrap (s : State) : (s.advance).fx1eWrap = s.fx1eWrap := rfl
@[simp] theorem State.advance_draws (s : State) : (s.advance).draws = s.draws := rfl

/-! ### countDraw -/

@[simp] theorem State.countDraw_mem (s : State) : (s.countDraw).mem = s.mem := rfl
@[simp] theorem State.countDraw_v (s : State) : (s.countDraw).v = s.v := rfl
@[simp] theorem State.countDraw_i (s : State) : (s.countDraw).i = s.i := rfl
@[simp] theorem State.countDraw_pc (s : State) : (s.countDraw).pc = s.pc := rfl
@[simp] theorem State.countDraw_sp (s : State) : (s.countDraw).sp = s.sp := rfl
@[simp] theorem State.countDraw_stack (s : State) : (s.countDraw).stack = s.stack := rfl
@[simp] theorem State.countDraw_dt (s : State) : (s.countDraw).dt = s.dt := rfl
@[simp] theorem State.countDraw_st (s : State) : (s.countDraw).st = s.st := rfl
@[simp] theorem State.countDraw_display (s : State) : (s.countDraw).display = s.display := rfl
@[simp] theorem State.countDraw_keys (s : State) : (s.countDraw).keys = s.keys := rfl
@[simp] theorem State.countDraw_quirks (s : State) : (s.countDraw).quirks = s.quirks := rfl
@[simp] theorem State.countDraw_halted (s : State) : (s.countDraw).halted = s.halted := rfl
@[simp] theorem State.countDraw_log (s : State) : (s.countDraw).log = s.log := rfl
@[simp] theorem State.countDraw_fx1eWrap (s : State) : (s.countDraw).fx1eWrap = s.fx1eWrap := rfl
@[simp] theorem State.countDraw_draws (s : State) :
    (s.countDraw).draws = s.draws + 1 := rfl

/-! ### appendReport -/

@[simp] theorem State.appendReport_mem (s : State) (r : Report) : (s.appendReport r).mem = s.mem := rfl
@[simp] theorem State.appendReport_v (s : State) (r : Report) : (s.appendReport r).v = s.v := rfl
@[simp] theorem State.appendReport_i (s : State) (r : Report) : (s.appendReport r).i = s.i := rfl
@[simp] theorem State.appendReport_pc (s : State) (r : Report) : (s.appendReport r).pc = s.pc := rfl
@[simp] theorem State.appendReport_sp (s : State) (r : Report) : (s.appendReport r).sp = s.sp := rfl
@[simp] theorem State.appendReport_stack (s : State) (r : Report) : (s.appendReport r).stack = s.stack := rfl
@[simp] theorem State.appendReport_dt (s : State) (r : Report) : (s.appendReport r).dt = s.dt := rfl
@[simp] theorem State.appendReport_st (s : State) (r : Report) : (s.appendReport r).st = s.st := rfl
@[simp] theorem State.appendReport_display (s : State) (r : Report) : (s.appendReport r).display = s.display := rfl
@[simp] theorem State.appendReport_keys (s : State) (r : Report) : (s.appendReport r).keys = s.keys := rfl
@[simp] theorem State.appendReport_quirks (s : State) (r : Report) : (s.appendReport r).quirks = s.quirks := rfl
@[simp] theorem State.appendReport_halted (s : State) (r : Report) : (s.appendReport r).halted = s.halted := rfl
@[simp] theorem State.appendReport_log (s : State) (r : Report) :
    (s.appendReport r).log = s.log ++ [r] := rfl
@[simp] theorem State.appendReport_fx1eWrap (s : State) (r : Report) : (s.appendReport r).fx1eWrap = s.fx1eWrap := rfl
@[simp] theorem State.appendReport_draws (s : State) (r : Report) : (s.appendReport r).draws = s.draws := rfl

/-! ### raiseWord -/

@[simp] theorem State.raiseWord_mem (s : State) (w : Word) (code : ReportCode) (info : Nat) : (s.raiseWord w code info).mem = s.mem := rfl
@[simp] theorem State.raiseWord_v (s : State) (w : Word) (code : ReportCode) (info : Nat) : (s.raiseWord w code info).v = s.v := rfl
@[simp] theorem State.raiseWord_i (s : State) (w : Word) (code : ReportCode) (info : Nat) : (s.raiseWord w code info).i = s.i := rfl
@[simp] theorem State.raiseWord_pc (s : State) (w : Word) (code : ReportCode) (info : Nat) : (s.raiseWord w code info).pc = s.pc := rfl
@[simp] theorem State.raiseWord_sp (s : State) (w : Word) (code : ReportCode) (info : Nat) : (s.raiseWord w code info).sp = s.sp := rfl
@[simp] theorem State.raiseWord_stack (s : State) (w : Word) (code : ReportCode) (info : Nat) : (s.raiseWord w code info).stack = s.stack := rfl
@[simp] theorem State.raiseWord_dt (s : State) (w : Word) (code : ReportCode) (info : Nat) : (s.raiseWord w code info).dt = s.dt := rfl
@[simp] theorem State.raiseWord_st (s : State) (w : Word) (code : ReportCode) (info : Nat) : (s.raiseWord w code info).st = s.st := rfl
@[simp] theorem State.raiseWord_display (s : State) (w : Word) (code : ReportCode) (info : Nat) : (s.raiseWord w code info).display = s.display := rfl
@[simp] theorem State.raiseWord_keys (s : State) (w : Word) (code : ReportCode) (info : Nat) : (s.raiseWord w code info).keys = s.keys := rfl
@[simp] theorem State.raiseWord_quirks (s : State) (w : Word) (code : ReportCode) (info : Nat) : (s.raiseWord w code info).quirks = s.quirks := rfl
@[simp] theorem State.raiseWord_halted (s : State) (w : Word) (code : ReportCode) (info : Nat) : (s.raiseWord w code info).halted = s.halted := rfl
@[simp] theorem State.raiseWord_log (s : State) (w : Word) (code : ReportCode) (info : Nat) :
    (s.raiseWord w code info).log = s.log ++ [⟨code, s.pc - 2, some w, info⟩] := rfl
@[simp] theorem State.raiseWord_fx1eWrap (s : State) (w : Word) (code : ReportCode) (info : Nat) : (s.raiseWord w code info).fx1eWrap = s.fx1eWrap := rfl
@[simp] theorem State.raiseWord_draws (s : State) (w : Word) (code : ReportCode) (info : Nat) : (s.raiseWord w code info).draws = s.draws := rfl

/-! ### raise -/

@[simp] theorem State.raise_mem (s : State) (j : Instr) (code : ReportCode) (info : Nat) : (s.raise j code info).mem = s.mem := rfl
@[simp] theorem State.raise_v (s : State) (j : Instr) (code : ReportCode) (info : Nat) : (s.raise j code info).v = s.v := rfl
@[simp] theorem State.raise_i (s : State) (j : Instr) (code : ReportCode) (info : Nat) : (s.raise j code info).i = s.i := rfl
@[simp] theorem State.raise_pc (s : State) (j : Instr) (code : ReportCode) (info : Nat) : (s.raise j code info).pc = s.pc := rfl
@[simp] theorem State.raise_sp (s : State) (j : Instr) (code : ReportCode) (info : Nat) : (s.raise j code info).sp = s.sp := rfl
@[simp] theorem State.raise_stack (s : State) (j : Instr) (code : ReportCode) (info : Nat) : (s.raise j code info).stack = s.stack := rfl
@[simp] theorem State.raise_dt (s : State) (j : Instr) (code : ReportCode) (info : Nat) : (s.raise j code info).dt = s.dt := rfl
@[simp] theorem State.raise_st (s : State) (j : Instr) (code : ReportCode) (info : Nat) : (s.raise j code info).st = s.st := rfl
@[simp] theorem State.raise_display (s : State) (j : Instr) (code : ReportCode) (info : Nat) : (s.raise j code info).display = s.display := rfl
@[simp] theorem State.raise_keys (s : State) (j : Instr) (code : ReportCode) (info : Nat) : (s.raise j code info).keys = s.keys := rfl
@[simp] theorem State.raise_quirks (s : State) (j : Instr) (code : ReportCode) (info : Nat) : (s.raise j code info).quirks = s.quirks := rfl
@[simp] theorem State.raise_halted (s : State) (j : Instr) (code : ReportCode) (info : Nat) : (s.raise j code info).halted = s.halted := rfl
@[simp] theorem State.raise_log (s : State) (j : Instr) (code : ReportCode) (info : Nat) :
    (s.raise j code info).log = s.log ++ [⟨code, s.pc - 2, some (encode j), info⟩] := rfl
@[simp] theorem State.raise_fx1eWrap (s : State) (j : Instr) (code : ReportCode) (info : Nat) : (s.raise j code info).fx1eWrap = s.fx1eWrap := rfl
@[simp] theorem State.raise_draws (s : State) (j : Instr) (code : ReportCode) (info : Nat) : (s.raise j code info).draws = s.draws := rfl

/-! ### raiseUnknown -/

@[simp] theorem State.raiseUnknown_mem (s : State) (w : Word) : (s.raiseUnknown w).mem = s.mem := rfl
@[simp] theorem State.raiseUnknown_v (s : State) (w : Word) : (s.raiseUnknown w).v = s.v := rfl
@[simp] theorem State.raiseUnknown_i (s : State) (w : Word) : (s.raiseUnknown w).i = s.i := rfl
@[simp] theorem State.raiseUnknown_pc (s : State) (w : Word) : (s.raiseUnknown w).pc = s.pc := rfl
@[simp] theorem State.raiseUnknown_sp (s : State) (w : Word) : (s.raiseUnknown w).sp = s.sp := rfl
@[simp] theorem State.raiseUnknown_stack (s : State) (w : Word) : (s.raiseUnknown w).stack = s.stack := rfl
@[simp] theorem State.raiseUnknown_dt (s : State) (w : Word) : (s.raiseUnknown w).dt = s.dt := rfl
@[simp] theorem State.raiseUnknown_st (s : State) (w : Word) : (s.raiseUnknown w).st = s.st := rfl
@[simp] theorem State.raiseUnknown_display (s : State) (w : Word) : (s.raiseUnknown w).display = s.display := rfl
@[simp] theorem State.raiseUnknown_keys (s : State) (w : Word) : (s.raiseUnknown w).keys = s.keys := rfl
@[simp] theorem State.raiseUnknown_quirks (s : State) (w : Word) : (s.raiseUnknown w).quirks = s.quirks := rfl
@[simp] theorem State.raiseUnknown_halted (s : State) (w : Word) : (s.raiseUnknown w).halted = s.halted := rfl
@[simp] theorem State.raiseUnknown_log (s : State) (w : Word) :
    (s.raiseUnknown w).log = s.log ++ [⟨.unknownOpcode, s.pc - 2, some w, w.toNat⟩] := rfl
@[simp] theorem State.raiseUnknown_fx1eWrap (s : State) (w : Word) : (s.raiseUnknown w).fx1eWrap = s.fx1eWrap := rfl
@[simp] theorem State.raiseUnknown_draws (s : State) (w : Word) : (s.raiseUnknown w).draws = s.draws := rfl

/-! ### failFetch -/

@[simp] theorem State.failFetch_mem (s : State) : (s.failFetch).mem = s.mem := rfl
@[simp] theorem State.failFetch_v (s : State) : (s.failFetch).v = s.v := rfl
@[simp] theorem State.failFetch_i (s : State) : (s.failFetch).i = s.i := rfl
@[simp] theorem State.failFetch_pc (s : State) : (s.failFetch).pc = s.pc := rfl
@[simp] theorem State.failFetch_sp (s : State) : (s.failFetch).sp = s.sp := rfl
@[simp] theorem State.failFetch_stack (s : State) : (s.failFetch).stack = s.stack := rfl
@[simp] theorem State.failFetch_dt (s : State) : (s.failFetch).dt = s.dt := rfl
@[simp] theorem State.failFetch_st (s : State) : (s.failFetch).st = s.st := rfl
@[simp] theorem State.failFetch_display (s : State) : (s.failFetch).display = s.display := rfl
@[simp] theorem State.failFetch_keys (s : State) : (s.failFetch).keys = s.keys := rfl
@[simp] theorem State.failFetch_quirks (s : State) : (s.failFetch).quirks = s.quirks := rfl
@[simp] theorem State.failFetch_halted (s : State) :
    (s.failFetch).halted = true := rfl
@[simp] theorem State.failFetch_log (s : State) :
    (s.failFetch).log = s.log ++ [⟨.fetchRange, s.pc, none, s.pc.toNat⟩] := rfl
@[simp] theorem State.failFetch_fx1eWrap (s : State) : (s.failFetch).fx1eWrap = s.fx1eWrap := rfl
@[simp] theorem State.failFetch_draws (s : State) : (s.failFetch).draws = s.draws := rfl

/-! ### placeWord -/

@[simp] theorem State.placeWord_mem (s : State) (w : Word) :
    (s.placeWord w).mem = s.mem.writeBytes s.pc.toNat (bytesOfWord w) := rfl
@[simp] theorem State.placeWord_v (s : State) (w : Word) : (s.placeWord w).v = s.v := rfl
@[simp] theorem State.placeWord_i (s : State) (w : Word) : (s.placeWord w).i = s.i := rfl
@[simp] theorem State.placeWord_pc (s : State) (w : Word) : (s.placeWord w).pc = s.pc := rfl
@[simp] theorem State.placeWord_sp (s : State) (w : Word) : (s.placeWord w).sp = s.sp := rfl
@[simp] theorem State.placeWord_stack (s : State) (w : Word) : (s.placeWord w).stack = s.stack := rfl
@[simp] theorem State.placeWord_dt (s : State) (w : Word) : (s.placeWord w).dt = s.dt := rfl
@[simp] theorem State.placeWord_st (s : State) (w : Word) : (s.placeWord w).st = s.st := rfl
@[simp] theorem State.placeWord_display (s : State) (w : Word) : (s.placeWord w).display = s.display := rfl
@[simp] theorem State.placeWord_keys (s : State) (w : Word) : (s.placeWord w).keys = s.keys := rfl
@[simp] theorem State.placeWord_quirks (s : State) (w : Word) : (s.placeWord w).quirks = s.quirks := rfl
@[simp] theorem State.placeWord_halted (s : State) (w : Word) :
    (s.placeWord w).halted = false := rfl
@[simp] theorem State.placeWord_log (s : State) (w : Word) : (s.placeWord w).log = s.log := rfl
@[simp] theorem State.placeWord_fx1eWrap (s : State) (w : Word) : (s.placeWord w).fx1eWrap = s.fx1eWrap := rfl
@[simp] theorem State.placeWord_draws (s : State) (w : Word) : (s.placeWord w).draws = s.draws := rfl

/-! ### push -/

@[simp] theorem State.push_mem (s : State) (a : Word) : (s.push a).mem = s.mem := rfl
@[simp] theorem State.push_v (s : State) (a : Word) : (s.push a).v = s.v := rfl
@[simp] theorem State.push_i (s : State) (a : Word) : (s.push a).i = s.i := rfl
@[simp] theorem State.push_pc (s : State) (a : Word) : (s.push a).pc = s.pc := rfl
@[simp] theorem State.push_sp (s : State) (a : Word) :
    (s.push a).sp = s.sp + 1 := rfl
@[simp] theorem State.push_stack (s : State) (a : Word) :
    (s.push a).stack = s.stack.setIfInBounds s.sp.toNat a := rfl
@[simp] theorem State.push_dt (s : State) (a : Word) : (s.push a).dt = s.dt := rfl
@[simp] theorem State.push_st (s : State) (a : Word) : (s.push a).st = s.st := rfl
@[simp] theorem State.push_display (s : State) (a : Word) : (s.push a).display = s.display := rfl
@[simp] theorem State.push_keys (s : State) (a : Word) : (s.push a).keys = s.keys := rfl
@[simp] theorem State.push_quirks (s : State) (a : Word) : (s.push a).quirks = s.quirks := rfl
@[simp] theorem State.push_halted (s : State) (a : Word) : (s.push a).halted = s.halted := rfl
@[simp] theorem State.push_log (s : State) (a : Word) : (s.push a).log = s.log := rfl
@[simp] theorem State.push_fx1eWrap (s : State) (a : Word) : (s.push a).fx1eWrap = s.fx1eWrap := rfl
@[simp] theorem State.push_draws (s : State) (a : Word) : (s.push a).draws = s.draws := rfl

/-! ### popToPc -/

@[simp] theorem State.popToPc_mem (s : State) : (s.popToPc).mem = s.mem := rfl
@[simp] theorem State.popToPc_v (s : State) : (s.popToPc).v = s.v := rfl
@[simp] theorem State.popToPc_i (s : State) : (s.popToPc).i = s.i := rfl
@[simp] theorem State.popToPc_pc (s : State) :
    (s.popToPc).pc = s.stackEntry (s.sp.toNat - 1) := rfl
@[simp] theorem State.popToPc_sp (s : State) :
    (s.popToPc).sp = s.sp - 1 := rfl
@[simp] theorem State.popToPc_stack (s : State) : (s.popToPc).stack = s.stack := rfl
@[simp] theorem State.popToPc_dt (s : State) : (s.popToPc).dt = s.dt := rfl
@[simp] theorem State.popToPc_st (s : State) : (s.popToPc).st = s.st := rfl
@[simp] theorem State.popToPc_display (s : State) : (s.popToPc).display = s.display := rfl
@[simp] theorem State.popToPc_keys (s : State) : (s.popToPc).keys = s.keys := rfl
@[simp] theorem State.popToPc_quirks (s : State) : (s.popToPc).quirks = s.quirks := rfl
@[simp] theorem State.popToPc_halted (s : State) : (s.popToPc).halted = s.halted := rfl
@[simp] theorem State.popToPc_log (s : State) : (s.popToPc).log = s.log := rfl
@[simp] theorem State.popToPc_fx1eWrap (s : State) : (s.popToPc).fx1eWrap = s.fx1eWrap := rfl
@[simp] theorem State.popToPc_draws (s : State) : (s.popToPc).draws = s.draws := rfl

/-! ### storeAtIndex -/

@[simp] theorem State.storeAtIndex_mem (s : State) (bytes : List Byte) :
    (s.storeAtIndex bytes).mem = s.mem.writeBytes s.i.toNat bytes := rfl
@[simp] theorem State.storeAtIndex_v (s : State) (bytes : List Byte) : (s.storeAtIndex bytes).v = s.v := rfl
@[simp] theorem State.storeAtIndex_i (s : State) (bytes : List Byte) : (s.storeAtIndex bytes).i = s.i := rfl
@[simp] theorem State.storeAtIndex_pc (s : State) (bytes : List Byte) : (s.storeAtIndex bytes).pc = s.pc := rfl
@[simp] theorem State.storeAtIndex_sp (s : State) (bytes : List Byte) : (s.storeAtIndex bytes).sp = s.sp := rfl
@[simp] theorem State.storeAtIndex_stack (s : State) (bytes : List Byte) : (s.storeAtIndex bytes).stack = s.stack := rfl
@[simp] theorem State.storeAtIndex_dt (s : State) (bytes : List Byte) : (s.storeAtIndex bytes).dt = s.dt := rfl
@[simp] theorem State.storeAtIndex_st (s : State) (bytes : List Byte) : (s.storeAtIndex bytes).st = s.st := rfl
@[simp] theorem State.storeAtIndex_display (s : State) (bytes : List Byte) : (s.storeAtIndex bytes).display = s.display := rfl
@[simp] theorem State.storeAtIndex_keys (s : State) (bytes : List Byte) : (s.storeAtIndex bytes).keys = s.keys := rfl
@[simp] theorem State.storeAtIndex_quirks (s : State) (bytes : List Byte) : (s.storeAtIndex bytes).quirks = s.quirks := rfl
@[simp] theorem State.storeAtIndex_halted (s : State) (bytes : List Byte) : (s.storeAtIndex bytes).halted = s.halted := rfl
@[simp] theorem State.storeAtIndex_log (s : State) (bytes : List Byte) : (s.storeAtIndex bytes).log = s.log := rfl
@[simp] theorem State.storeAtIndex_fx1eWrap (s : State) (bytes : List Byte) : (s.storeAtIndex bytes).fx1eWrap = s.fx1eWrap := rfl
@[simp] theorem State.storeAtIndex_draws (s : State) (bytes : List Byte) : (s.storeAtIndex bytes).draws = s.draws := rfl

/-! ### loadBlock -/

@[simp] theorem State.loadBlock_mem (s : State) (x : Nibble) : (s.loadBlock x).mem = s.mem := rfl
@[simp] theorem State.loadBlock_i (s : State) (x : Nibble) : (s.loadBlock x).i = s.i := rfl
@[simp] theorem State.loadBlock_pc (s : State) (x : Nibble) : (s.loadBlock x).pc = s.pc := rfl
@[simp] theorem State.loadBlock_sp (s : State) (x : Nibble) : (s.loadBlock x).sp = s.sp := rfl
@[simp] theorem State.loadBlock_stack (s : State) (x : Nibble) : (s.loadBlock x).stack = s.stack := rfl
@[simp] theorem State.loadBlock_dt (s : State) (x : Nibble) : (s.loadBlock x).dt = s.dt := rfl
@[simp] theorem State.loadBlock_st (s : State) (x : Nibble) : (s.loadBlock x).st = s.st := rfl
@[simp] theorem State.loadBlock_display (s : State) (x : Nibble) : (s.loadBlock x).display = s.display := rfl
@[simp] theorem State.loadBlock_keys (s : State) (x : Nibble) : (s.loadBlock x).keys = s.keys := rfl
@[simp] theorem State.loadBlock_quirks (s : State) (x : Nibble) : (s.loadBlock x).quirks = s.quirks := rfl
@[simp] theorem State.loadBlock_halted (s : State) (x : Nibble) : (s.loadBlock x).halted = s.halted := rfl
@[simp] theorem State.loadBlock_log (s : State) (x : Nibble) : (s.loadBlock x).log = s.log := rfl
@[simp] theorem State.loadBlock_fx1eWrap (s : State) (x : Nibble) : (s.loadBlock x).fx1eWrap = s.fx1eWrap := rfl
@[simp] theorem State.loadBlock_draws (s : State) (x : Nibble) : (s.loadBlock x).draws = s.draws := rfl

/-! ### drawSprite -/

@[simp] theorem State.drawSprite_mem (s : State) (x y n : Nibble) : (s.drawSprite x y n).mem = s.mem := rfl
@[simp] theorem State.drawSprite_v (s : State) (x y n : Nibble) :
    (s.drawSprite x y n).v = s.v.set 15 (flagByte (Display.draw s.display (s.dots x y n)).2) := rfl
@[simp] theorem State.drawSprite_i (s : State) (x y n : Nibble) : (s.drawSprite x y n).i = s.i := rfl
@[simp] theorem State.drawSprite_pc (s : State) (x y n : Nibble) : (s.drawSprite x y n).pc = s.pc := rfl
@[simp] theorem State.drawSprite_sp (s : State) (x y n : Nibble) : (s.drawSprite x y n).sp = s.sp := rfl
@[simp] theorem State.drawSprite_stack (s : State) (x y n : Nibble) : (s.drawSprite x y n).stack = s.stack := rfl
@[simp] theorem State.drawSprite_dt (s : State) (x y n : Nibble) : (s.drawSprite x y n).dt = s.dt := rfl
@[simp] theorem State.drawSprite_st (s : State) (x y n : Nibble) : (s.drawSprite x y n).st = s.st := rfl
@[simp] theorem State.drawSprite_display (s : State) (x y n : Nibble) :
    (s.drawSprite x y n).display = (Display.draw s.display (s.dots x y n)).1 := rfl
@[simp] theorem State.drawSprite_keys (s : State) (x y n : Nibble) : (s.drawSprite x y n).keys = s.keys := rfl
@[simp] theorem State.drawSprite_quirks (s : State) (x y n : Nibble) : (s.drawSprite x y n).quirks = s.quirks := rfl
@[simp] theorem State.drawSprite_halted (s : State) (x y n : Nibble) : (s.drawSprite x y n).halted = s.halted := rfl
@[simp] theorem State.drawSprite_log (s : State) (x y n : Nibble) : (s.drawSprite x y n).log = s.log := rfl
@[simp] theorem State.drawSprite_fx1eWrap (s : State) (x y n : Nibble) : (s.drawSprite x y n).fx1eWrap = s.fx1eWrap := rfl
@[simp] theorem State.drawSprite_draws (s : State) (x y n : Nibble) : (s.drawSprite x y n).draws = s.draws := rfl

/-! ### tick -/

@[simp] theorem State.tick_mem (s : State) : (s.tick).mem = s.mem := rfl
@[simp] theorem State.tick_v (s : State) : (s.tick).v = s.v := rfl
@[simp] theorem State.tick_i (s : State) : (s.tick).i = s.i := rfl
@[simp] theorem State.tick_pc (s : State) : (s.tick).pc = s.pc := rfl
@[simp] theorem State.tick_sp (s : State) : (s.tick).sp = s.sp := rfl
@[simp] theorem State.tick_stack (s : State) : (s.tick).stack = s.stack := rfl
@[simp] theorem State.tick_dt (s : State) :
    (s.tick).dt = countDown s.dt := rfl
@[simp] theorem State.tick_st (s : State) :
    (s.tick).st = countDown s.st := rfl
@[simp] theorem State.tick_display (s : State) : (s.tick).display = s.display := rfl
@[simp] theorem State.tick_keys (s : State) : (s.tick).keys = s.keys := rfl
@[simp] theorem State.tick_quirks (s : State) : (s.tick).quirks = s.quirks := rfl
@[simp] theorem State.tick_halted (s : State) : (s.tick).halted = s.halted := rfl
@[simp] theorem State.tick_log (s : State) : (s.tick).log = s.log := rfl
@[simp] theorem State.tick_fx1eWrap (s : State) : (s.tick).fx1eWrap = s.fx1eWrap := rfl
@[simp] theorem State.tick_draws (s : State) : (s.tick).draws = s.draws := rfl

/-! ### latchKeys -/

@[simp] theorem State.latchKeys_mem (s : State) (keys : Vector Bool 16) : (s.latchKeys keys).mem = s.mem := rfl
@[simp] theorem State.latchKeys_v (s : State) (keys : Vector Bool 16) : (s.latchKeys keys).v = s.v := rfl
@[simp] theorem State.latchKeys_i (s : State) (keys : Vector Bool 16) : (s.latchKeys keys).i = s.i := rfl
@[simp] theorem State.latchKeys_pc (s : State) (keys : Vector Bool 16) : (s.latchKeys keys).pc = s.pc := rfl
@[simp] theorem State.latchKeys_sp (s : State) (keys : Vector Bool 16) : (s.latchKeys keys).sp = s.sp := rfl
@[simp] theorem State.latchKeys_stack (s : State) (keys : Vector Bool 16) : (s.latchKeys keys).stack = s.stack := rfl
@[simp] theorem State.latchKeys_dt (s : State) (keys : Vector Bool 16) : (s.latchKeys keys).dt = s.dt := rfl
@[simp] theorem State.latchKeys_st (s : State) (keys : Vector Bool 16) : (s.latchKeys keys).st = s.st := rfl
@[simp] theorem State.latchKeys_display (s : State) (keys : Vector Bool 16) : (s.latchKeys keys).display = s.display := rfl
@[simp] theorem State.latchKeys_keys (s : State) (keys : Vector Bool 16) :
    (s.latchKeys keys).keys = keys := rfl
@[simp] theorem State.latchKeys_quirks (s : State) (keys : Vector Bool 16) : (s.latchKeys keys).quirks = s.quirks := rfl
@[simp] theorem State.latchKeys_halted (s : State) (keys : Vector Bool 16) : (s.latchKeys keys).halted = s.halted := rfl
@[simp] theorem State.latchKeys_log (s : State) (keys : Vector Bool 16) : (s.latchKeys keys).log = s.log := rfl
@[simp] theorem State.latchKeys_fx1eWrap (s : State) (keys : Vector Bool 16) : (s.latchKeys keys).fx1eWrap = s.fx1eWrap := rfl
@[simp] theorem State.latchKeys_draws (s : State) (keys : Vector Bool 16) : (s.latchKeys keys).draws = s.draws := rfl

/-! ### raiseLoad -/

@[simp] theorem State.raiseLoad_mem (s : State) (code : ReportCode) (info : Nat) : (s.raiseLoad code info).mem = s.mem := rfl
@[simp] theorem State.raiseLoad_v (s : State) (code : ReportCode) (info : Nat) : (s.raiseLoad code info).v = s.v := rfl
@[simp] theorem State.raiseLoad_i (s : State) (code : ReportCode) (info : Nat) : (s.raiseLoad code info).i = s.i := rfl
@[simp] theorem State.raiseLoad_pc (s : State) (code : ReportCode) (info : Nat) : (s.raiseLoad code info).pc = s.pc := rfl
@[simp] theorem State.raiseLoad_sp (s : State) (code : ReportCode) (info : Nat) : (s.raiseLoad code info).sp = s.sp := rfl
@[simp] theorem State.raiseLoad_stack (s : State) (code : ReportCode) (info : Nat) : (s.raiseLoad code info).stack = s.stack := rfl
@[simp] theorem State.raiseLoad_dt (s : State) (code : ReportCode) (info : Nat) : (s.raiseLoad code info).dt = s.dt := rfl
@[simp] theorem State.raiseLoad_st (s : State) (code : ReportCode) (info : Nat) : (s.raiseLoad code info).st = s.st := rfl
@[simp] theorem State.raiseLoad_display (s : State) (code : ReportCode) (info : Nat) : (s.raiseLoad code info).display = s.display := rfl
@[simp] theorem State.raiseLoad_keys (s : State) (code : ReportCode) (info : Nat) : (s.raiseLoad code info).keys = s.keys := rfl
@[simp] theorem State.raiseLoad_quirks (s : State) (code : ReportCode) (info : Nat) : (s.raiseLoad code info).quirks = s.quirks := rfl
@[simp] theorem State.raiseLoad_halted (s : State) (code : ReportCode) (info : Nat) : (s.raiseLoad code info).halted = s.halted := rfl
@[simp] theorem State.raiseLoad_log (s : State) (code : ReportCode) (info : Nat) :
    (s.raiseLoad code info).log = s.log ++ [⟨code, s.pc, none, info⟩] := rfl
@[simp] theorem State.raiseLoad_fx1eWrap (s : State) (code : ReportCode) (info : Nat) : (s.raiseLoad code info).fx1eWrap = s.fx1eWrap := rfl
@[simp] theorem State.raiseLoad_draws (s : State) (code : ReportCode) (info : Nat) : (s.raiseLoad code info).draws = s.draws := rfl

/-! ### skipIf -/

@[simp] theorem State.skipIf_mem (s : State) (c : Bool) :
    (s.skipIf c).mem = s.mem := by
  unfold State.skipIf; split <;> rfl
@[simp] theorem State.skipIf_v (s : State) (c : Bool) :
    (s.skipIf c).v = s.v := by
  unfold State.skipIf; split <;> rfl
@[simp] theorem State.skipIf_i (s : State) (c : Bool) :
    (s.skipIf c).i = s.i := by
  unfold State.skipIf; split <;> rfl
@[simp] theorem State.skipIf_pc (s : State) (c : Bool) :
    (s.skipIf c).pc = if c then s.pc + 2 else s.pc := by
  unfold State.skipIf; split <;> rfl
@[simp] theorem State.skipIf_sp (s : State) (c : Bool) :
    (s.skipIf c).sp = s.sp := by
  unfold State.skipIf; split <;> rfl
@[simp] theorem State.skipIf_stack (s : State) (c : Bool) :
    (s.skipIf c).stack = s.stack := by
  unfold State.skipIf; split <;> rfl
@[simp] theorem State.skipIf_dt (s : State) (c : Bool) :
    (s.skipIf c).dt = s.dt := by
  unfold State.skipIf; split <;> rfl
@[simp] theorem State.skipIf_st (s : State) (c : Bool) :
    (s.skipIf c).st = s.st := by
  unfold State.skipIf; split <;> rfl
@[simp] theorem State.skipIf_display (s : State) (c : Bool) :
    (s.skipIf c).display = s.display := by
  unfold State.skipIf; split <;> rfl
@[simp] theorem State.skipIf_keys (s : State) (c : Bool) :
    (s.skipIf c).keys = s.keys := by
  unfold State.skipIf; split <;> rfl
@[simp] theorem State.skipIf_quirks (s : State) (c : Bool) :
    (s.skipIf c).quirks = s.quirks := by
  unfold State.skipIf; split <;> rfl
@[simp] theorem State.skipIf_halted (s : State) (c : Bool) :
    (s.skipIf c).halted = s.halted := by
  unfold State.skipIf; split <;> rfl
@[simp] theorem State.skipIf_log (s : State) (c : Bool) :
    (s.skipIf c).log = s.log := by
  unfold State.skipIf; split <;> rfl
@[simp] theorem State.skipIf_fx1eWrap (s : State) (c : Bool) :
    (s.skipIf c).fx1eWrap = s.fx1eWrap := by
  unfold State.skipIf; split <;> rfl
@[simp] theorem State.skipIf_draws (s : State) (c : Bool) :
    (s.skipIf c).draws = s.draws := by
  unfold State.skipIf; split <;> rfl

/-! ### bumpIndex -/

@[simp] theorem State.bumpIndex_mem (s : State) (x : Nibble) :
    (s.bumpIndex x).mem = s.mem := by
  unfold State.bumpIndex; split <;> rfl
@[simp] theorem State.bumpIndex_v (s : State) (x : Nibble) :
    (s.bumpIndex x).v = s.v := by
  unfold State.bumpIndex; split <;> rfl
@[simp] theorem State.bumpIndex_i (s : State) (x : Nibble) :
    (s.bumpIndex x).i = if s.quirks.loadStoreInc then BitVec.ofNat 16 (s.i.toNat + x.toNat + 1) else s.i := by
  unfold State.bumpIndex; split <;> rfl
@[simp] theorem State.bumpIndex_pc (s : State) (x : Nibble) :
    (s.bumpIndex x).pc = s.pc := by
  unfold State.bumpIndex; split <;> rfl
@[simp] theorem State.bumpIndex_sp (s : State) (x : Nibble) :
    (s.bumpIndex x).sp = s.sp := by
  unfold State.bumpIndex; split <;> rfl
@[simp] theorem State.bumpIndex_stack (s : State) (x : Nibble) :
    (s.bumpIndex x).stack = s.stack := by
  unfold State.bumpIndex; split <;> rfl
@[simp] theorem State.bumpIndex_dt (s : State) (x : Nibble) :
    (s.bumpIndex x).dt = s.dt := by
  unfold State.bumpIndex; split <;> rfl
@[simp] theorem State.bumpIndex_st (s : State) (x : Nibble) :
    (s.bumpIndex x).st = s.st := by
  unfold State.bumpIndex; split <;> rfl
@[simp] theorem State.bumpIndex_display (s : State) (x : Nibble) :
    (s.bumpIndex x).display = s.display := by
  unfold State.bumpIndex; split <;> rfl
@[simp] theorem State.bumpIndex_keys (s : State) (x : Nibble) :
    (s.bumpIndex x).keys = s.keys := by
  unfold State.bumpIndex; split <;> rfl
@[simp] theorem State.bumpIndex_quirks (s : State) (x : Nibble) :
    (s.bumpIndex x).quirks = s.quirks := by
  unfold State.bumpIndex; split <;> rfl
@[simp] theorem State.bumpIndex_halted (s : State) (x : Nibble) :
    (s.bumpIndex x).halted = s.halted := by
  unfold State.bumpIndex; split <;> rfl
@[simp] theorem State.bumpIndex_log (s : State) (x : Nibble) :
    (s.bumpIndex x).log = s.log := by
  unfold State.bumpIndex; split <;> rfl
@[simp] theorem State.bumpIndex_fx1eWrap (s : State) (x : Nibble) :
    (s.bumpIndex x).fx1eWrap = s.fx1eWrap := by
  unfold State.bumpIndex; split <;> rfl
@[simp] theorem State.bumpIndex_draws (s : State) (x : Nibble) :
    (s.bumpIndex x).draws = s.draws := by
  unfold State.bumpIndex; split <;> rfl

/-- Two states that agree on every field are equal. -/
theorem State.ext_fields {s t : State} (mem : s.mem = t.mem) (v : s.v = t.v) (i : s.i = t.i) (pc : s.pc = t.pc)
    (sp : s.sp = t.sp) (stack : s.stack = t.stack) (dt : s.dt = t.dt) (st : s.st = t.st)
    (display : s.display = t.display) (keys : s.keys = t.keys) (quirks : s.quirks = t.quirks)
    (halted : s.halted = t.halted) (log : s.log = t.log) (wrap : s.fx1eWrap = t.fx1eWrap) (draws : s.draws = t.draws) :
    s = t := by
  cases s; cases t; simp_all

end Sys2Proof.Machine
end

