-- ==== Sys2Proof/Laws/Registers.lean ====
section
/-!
SUPPORT. Reading registers and stack entries after each update.
-/

namespace Sys2Proof.Machine

@[simp] theorem State.reg_setReg (s : State) (x r : Nibble) (b : Byte) :
    (s.setReg x b).reg r = if r = x then b else s.reg r := by
  simp only [State.reg, State.setReg_v, Vector.getElem_set, BitVec.toNat_inj, eq_comm]

@[simp] theorem State.reg_setFlag (s : State) (r : Nibble) (f : Bool) :
    (s.setFlag f).reg r = if r = 0xF#4 then flagByte f else s.reg r :=
  State.reg_setReg s vf r (flagByte f)

/-- VF ends with the flag, also when it is the destination (41_alu.md R180). -/
@[simp] theorem State.reg_setRegThenFlag (s : State) (x r : Nibble) (b : Byte) (f : Bool) :
    (s.setRegThenFlag x b f).reg r = if r = 0xF#4 then flagByte f else if r = x then b else s.reg r := by
  simp [State.setRegThenFlag]

/-- Registers are read from V alone. -/
theorem State.reg_congr {s t : State} (h : t.v = s.v) (r : Nibble) : t.reg r = s.reg r := by
  simp only [State.reg, h]

/-- Stack entries are read from S alone. -/
theorem State.stackEntry_congr {s t : State} (h : t.stack = s.stack) (k : Nat) : t.stackEntry k = s.stackEntry k := by
  simp only [State.stackEntry, h]

@[simp] theorem State.reg_setIndex (s : State) (w : Word) (r : Nibble) : (s.setIndex w).reg r = s.reg r := rfl
@[simp] theorem State.reg_setPc (s : State) (w : Word) (r : Nibble) : (s.setPc w).reg r = s.reg r := rfl
@[simp] theorem State.reg_advance (s : State) (r : Nibble) : s.advance.reg r = s.reg r := rfl
@[simp] theorem State.reg_countDraw (s : State) (r : Nibble) : s.countDraw.reg r = s.reg r := rfl
@[simp] theorem State.reg_storeAtIndex (s : State) (bytes : List Byte) (r : Nibble) :
    (s.storeAtIndex bytes).reg r = s.reg r := rfl

@[simp] theorem State.reg_skipIf (s : State) (c : Bool) (r : Nibble) : (s.skipIf c).reg r = s.reg r :=
  State.reg_congr (State.skipIf_v s c) r

@[simp] theorem State.reg_bumpIndex (s : State) (x r : Nibble) : (s.bumpIndex x).reg r = s.reg r :=
  State.reg_congr (State.bumpIndex_v s x) r

/-- The flag byte as a number. -/
@[simp] theorem flagByte_toNat (f : Bool) : (flagByte f).toNat = if f then 1 else 0 := by cases f <;> rfl

/-- A push writes the entry at SP and no other (10_state.md R44). -/
theorem State.stackEntry_push (s : State) (a : Word) (k : Nat) (hk : k < 16) :
    (s.push a).stackEntry k = if k = s.sp.toNat then a else s.stackEntry k := by
  simp only [State.stackEntry, State.push_stack, Vector.getElem?_setIfInBounds]
  grind

/-- Skipping writes PC alone. -/
theorem State.skipIf_eq (s : State) (c : Bool) : s.skipIf c = { s with pc := if c then s.pc + 2 else s.pc } := by
  cases c <;> rfl

/-- A state with V replaced, when only V changed. -/
theorem State.setReg_eq (s : State) (x : Nibble) (b : Byte) : s.setReg x b = { s with v := (s.setReg x b).v } := rfl

/-- The load of a block of registers: V0..Vx from memory, the others kept (42_index_memory.md R253). -/
theorem foldl_setIfInBounds_getElem (f : Nat → Byte) (v : Vector Byte 16) (n k : Nat) (hk : k < 16) :
    ((List.range n).foldl (fun v j => v.setIfInBounds j (f j)) v)[k] = if k < n then f k else v[k] := by
  induction n with
  | zero => simp
  | succ n ih =>
    simp only [List.range_succ, List.foldl_append, List.foldl_cons, List.foldl_nil, Vector.getElem_setIfInBounds, ih]
    grind

/-- What a block load leaves in each register (42_index_memory.md R253). -/
theorem State.reg_loadBlock (s : State) (x r : Nibble) :
    (s.loadBlock x).reg r = if r.toNat ≤ x.toNat then s.mem.read (s.i.toNat + r.toNat) else s.reg r := by
  have h := foldl_setIfInBounds_getElem (fun k => s.mem.read (s.i.toNat + k)) s.v (x.toNat + 1) r.toNat r.isLt
  simpa only [State.reg, State.loadBlock, Nat.lt_succ_iff] using h

end Sys2Proof.Machine
end

