-- ==== Sys2Proof/Laws/Display.lean ====
section
/-!
SUPPORT. The laws of the display: one pixel's flip, the pixels of a sprite, and what a draw does to every pixel and to the
collision flag.
-/

namespace Sys2Proof.Machine

/-- A cleared display is off everywhere (43_display.md R260). -/
@[simp] theorem Display.get_blank (c r : Nat) : Display.get Display.blank c r = false := by
  unfold Display.get Display.blank; split <;> simp

/-- A flip changes its own pixel and no other. -/
theorem Display.get_flip (d : Display) {c r : Nat} (hc : c < 64) (hr : r < 32) (c' r' : Nat) :
    Display.get (Display.flip d c r) c' r' = if (c', r') = (c, r) then !Display.get d c r else Display.get d c' r' := by
  simp only [Display.flip, dif_pos (And.intro hc hr), Display.get, Prod.mk.injEq]
  by_cases h : c' < 64 ∧ r' < 32
  · simp only [dif_pos h, Vector.getElem_set]
    by_cases h1 : c = c'
    · subst h1
      by_cases h2 : r = r'
      · subst h2; simp
      · simp [h2, Ne.symm h2]
    · simp [h1, Ne.symm h1]
  · simp only [dif_neg h]
    rw [if_neg]; rintro ⟨rfl, rfl⟩; exact h ⟨hc, hr⟩

/-- Drawing pixels one after another, from any display and flag: each listed pixel flips, and the flag notes those found
on. The list names no pixel twice. -/
theorem foldl_drawDot (dots : List (Nat × Nat)) (hn : dots.Nodup) (hs : ∀ p ∈ dots, p.1 < 64 ∧ p.2 < 32)
    (acc : Display × Bool) :
    (∀ c r, Display.get (dots.foldl drawDot acc).1 c r =
      if (c, r) ∈ dots then !Display.get acc.1 c r else Display.get acc.1 c r) ∧
    ((dots.foldl drawDot acc).2 = true ↔ acc.2 = true ∨ ∃ p ∈ dots, Display.get acc.1 p.1 p.2 = true) := by
  induction dots generalizing acc with
  | nil => simp
  | cons p rest ih =>
    obtain ⟨pc, pr⟩ := p
    have hp : pc < 64 ∧ pr < 32 := hs (pc, pr) (by simp)
    rw [List.nodup_cons] at hn
    obtain ⟨ih1, ih2⟩ := ih hn.2 (fun q hq => hs q (by simp [hq])) (drawDot acc (pc, pr))
    have hflip := Display.get_flip acc.1 hp.1 hp.2
    refine ⟨fun c r => ?_, ?_⟩
    · rw [List.foldl_cons, ih1 c r]
      simp only [drawDot, hflip, List.mem_cons]
      by_cases h : (c, r) = (pc, pr)
      · simp only [h, hn.1, if_true, true_or, if_false]; cases h; rfl
      · simp only [h, false_or, if_false]
    · rw [List.foldl_cons, ih2]
      simp only [drawDot, Bool.or_eq_true, List.exists_mem_cons_iff]
      constructor
      · rintro ((h | h) | ⟨q, hq, h⟩)
        · exact .inl h
        · exact .inr (.inl h)
        · rw [hflip, if_neg (fun e : q = (pc, pr) => hn.1 (e ▸ hq))] at h
          exact .inr (.inr ⟨q, hq, h⟩)
      · rintro (h | h | ⟨q, hq, h⟩)
        · exact .inl (.inl h)
        · exact .inl (.inr h)
        · refine .inr ⟨q, hq, ?_⟩
          rw [hflip, if_neg (fun e : q = (pc, pr) => hn.1 (e ▸ hq))]
          exact h

/-- What a draw does to a pixel (43_display.md R263). -/
theorem Display.get_draw (d : Display) (dots : List (Nat × Nat)) (hn : dots.Nodup)
    (hs : ∀ p ∈ dots, p.1 < 64 ∧ p.2 < 32) (c r : Nat) :
    Display.get (Display.draw d dots).1 c r = if (c, r) ∈ dots then !Display.get d c r else Display.get d c r :=
  (foldl_drawDot dots hn hs (d, false)).1 c r

/-- When a draw collides (43_display.md R266). -/
theorem Display.draw_flag (d : Display) (dots : List (Nat × Nat)) (hn : dots.Nodup)
    (hs : ∀ p ∈ dots, p.1 < 64 ∧ p.2 < 32) :
    (Display.draw d dots).2 = true ↔ ∃ p ∈ dots, Display.get d p.1 p.2 = true := by
  simpa [Display.draw] using (foldl_drawDot dots hn hs (d, false)).2

/-- The pixels of a sprite (43_display.md R263-R265). -/
theorem mem_spriteDots (x0 y0 n : Nat) (row : Nat → Byte) (c r : Nat) :
    (c, r) ∈ spriteDots x0 y0 n row ↔
      x0 ≤ c ∧ c < x0 + 8 ∧ y0 ≤ r ∧ r < y0 + n ∧ c < 64 ∧ r < 32 ∧
        (row (r - y0)).getLsbD (7 - (c - x0)) = true := by
  simp only [spriteDots, List.mem_flatMap, List.mem_filterMap, List.mem_range, Option.ite_none_right_eq_some,
    Option.some.injEq, Prod.mk.injEq]
  constructor
  · rintro ⟨r', hr', c', hc', ⟨hy, hx, hb⟩, rfl, rfl⟩
    simp only [Nat.add_sub_cancel_left]
    exact ⟨by omega, by omega, by omega, by omega, hx, hy, hb⟩
  · rintro ⟨h1, h2, h3, h4, h5, h6, h7⟩
    exact ⟨r - y0, by omega, c - x0, by omega, ⟨by omega, by omega, h7⟩, by omega, by omega⟩

/-- A sprite draws no pixel twice. -/
theorem spriteDots_nodup (x0 y0 n : Nat) (row : Nat → Byte) : (spriteDots x0 y0 n row).Nodup := by
  rw [spriteDots, List.nodup_flatMap]
  refine ⟨fun r _ => ?_, ?_⟩
  · refine List.Nodup.filterMap (fun c c' p hp hp' => ?_) List.nodup_range
    simp only [Option.mem_def, Option.ite_none_right_eq_some, Option.some.injEq] at hp hp'
    have := hp.2.trans hp'.2.symm
    simp only [Prod.mk.injEq] at this; omega
  · refine List.Pairwise.imp (fun {r r'} hrr => ?_) (List.nodup_range (n := n))
    intro p hp hp'
    simp only [List.mem_filterMap, Option.ite_none_right_eq_some, Option.some.injEq] at hp hp'
    obtain ⟨_, _, _, rfl⟩ := hp
    obtain ⟨_, _, _, h⟩ := hp'
    simp only [Prod.mk.injEq] at h; omega

/-- A sprite draws on the screen only (43_display.md R265). -/
theorem spriteDots_onScreen (x0 y0 n : Nat) (row : Nat → Byte) : ∀ p ∈ spriteDots x0 y0 n row, p.1 < 64 ∧ p.2 < 32 := by
  rintro ⟨c, r⟩ h
  have := (mem_spriteDots x0 y0 n row c r).mp h
  exact ⟨this.2.2.2.2.1, this.2.2.2.2.2.1⟩

/-- The pixels Dxyn draws are those its sprite covers, on the screen. -/
theorem State.mem_dots (s : State) (x y n : Nibble) (c r : Nat) :
    (c, r) ∈ s.dots x y n ↔ s.spriteCovers x y n c r ∧ c < 64 ∧ r < 32 := by
  simp only [State.dots, mem_spriteDots, State.spriteCovers, State.startColumn, State.startRow]
  tauto

end Sys2Proof.Machine
end

