-- ==== Sys2Proof/Laws/Flags.lean ====
section
/-!
SUPPORT. One spec lemma per flag and per result, in natural numbers, so that no proof unfolds one.
-/

namespace Sys2Proof.Machine

@[simp] theorem addResult_toNat (a b : Byte) : (addResult a b).toNat = (a.toNat + b.toNat) % 256 := by
  simp [addResult]

@[simp] theorem addCarry_iff (a b : Byte) : addCarry a b = true ↔ 0x100 ≤ a.toNat + b.toNat := by
  simp [addCarry]

theorem subResult_toNat (a b : Byte) : ((subResult a b).toNat : Int) = ((a.toNat : Int) - b.toNat) % 256 := by
  simp only [subResult, BitVec.toNat_sub]; omega

@[simp] theorem noBorrow_iff (a b : Byte) : noBorrow a b = true ↔ b.toNat ≤ a.toNat := by
  simp [noBorrow]

@[simp] theorem shiftRight_toNat (v : Byte) : (shiftRight v).toNat = v.toNat / 2 := by
  simp [shiftRight, Nat.shiftRight_eq_div_pow]

@[simp] theorem rightBitOut_iff (v : Byte) : rightBitOut v = true ↔ v.toNat % 2 = 1 := by
  simp [rightBitOut, BitVec.getLsbD, Nat.testBit_zero]

@[simp] theorem shiftLeft_toNat (v : Byte) : (shiftLeft v).toNat = v.toNat * 2 % 256 := by
  simp [shiftLeft, Nat.shiftLeft_eq]

@[simp] theorem leftBitOut_iff (v : Byte) : leftBitOut v = true ↔ 128 ≤ v.toNat := by
  have := v.isLt
  simp only [leftBitOut, BitVec.getLsbD, Nat.testBit_eq_decide_div_mod_eq, decide_eq_true_eq]; omega

@[simp] theorem indexOverflow_iff (n : Nat) : indexOverflow n = true ↔ 0x1000 ≤ n := by
  simp [indexOverflow]

@[simp] theorem keyOutOfRange_iff (k : Nat) : keyOutOfRange k = true ↔ 16 ≤ k := by
  simp [keyOutOfRange]

@[simp] theorem targetOutOfRange_iff (t : Nat) : targetOutOfRange t = true ↔ 0x1000 ≤ t := by
  simp [targetOutOfRange]

/-- FX1E_WRAP keeps the sum modulo 2^16, or modulo 2^12 (42_index_memory.md R233). -/
theorem Fx1eWrap.narrow_toNat (w : Fx1eWrap) (n : Nat) :
    (w.narrow n).toNat = n % (match w with | .full16 => 2 ^ 16 | .mask12 => 2 ^ 12) := by
  cases w <;> simp only [Fx1eWrap.narrow, BitVec.toNat_ofNat]; omega

@[simp] theorem glyphAddress_toNat (b : Byte) : (glyphAddress b).toNat = b.toNat * 5 := by
  simp only [glyphAddress, BitVec.toNat_ofNat]; omega

/-- The three digits, each below ten (42_index_memory.md R240). -/
theorem decimalDigits_toNat (b : Byte) :
    (decimalDigits b).map BitVec.toNat = [b.toNat / 100, b.toNat / 10 % 10, b.toNat % 10] := by
  simp only [decimalDigits, List.map_cons, List.map_nil, BitVec.toNat_ofNat]
  congr 1 <;> first | omega | (congr 1 <;> first | omega | (congr 1; omega))

/-- A timer's decrement floors at 0 (44_keypad_timers.md R296). -/
@[simp] theorem countDown_toNat (t : Byte) : (countDown t).toNat = t.toNat - 1 := by
  unfold countDown; split
  · bv_omega
  · omega

/-- The register a shift reads (10_state.md R63). -/
theorem State.shiftSource_eq (s : State) (x y : Nibble) :
    s.shiftSource x y = s.reg (if s.quirks.shiftVy then y else x) := by
  unfold State.shiftSource; split <;> rfl

/-- The register Bnnn reads (10_state.md R65). -/
theorem State.offsetReg_toNat (s : State) (nnn : Addr12) :
    (s.offsetReg nnn).toNat = if s.quirks.jumpVx then nnn.toNat / 256 else 0 := by
  unfold State.offsetReg; split
  · simp only [BitVec.extractLsb'_toNat, Nat.shiftRight_eq_div_pow]; omega
  · rfl

end Sys2Proof.Machine
end

