-- ==== Sys2Proof/Laws/Memory.lean ====
section
/-!
SUPPORT. The laws of memory: read after write, the canonical form is kept, blocks of bytes, and the address checks.
-/

namespace Sys2Proof.Machine

theorem Memory.read_cons_ne (rest : Memory) {a b : Nat} (v : Byte) (h : b ≠ a) :
    Memory.read (Memory.cons a v rest) b = Memory.read rest b := by
  unfold Memory.cons; split
  · rfl
  · simp [Memory.read, Ne.symm h]

theorem Memory.read_insert_ne (m : Memory) {a b : Nat} (v : Byte) (h : b ≠ a) :
    Memory.read (Memory.insert m a v) b = Memory.read m b := by
  induction m with
  | nil => simpa [Memory.insert] using Memory.read_cons_ne [] v h
  | cons c rest ih =>
    obtain ⟨k, w⟩ := c
    simp only [Memory.insert]
    split
    · exact Memory.read_cons_ne _ v h
    · split
      · next hk => subst hk; rw [Memory.read_cons_ne _ v h]; simp [Memory.read, Ne.symm h]
      · simp [Memory.read, ih]

/-- A write leaves every other byte alone. -/
theorem Memory.read_write_ne (m : Memory) {a b : Nat} (v : Byte) (h : b ≠ a) :
    Memory.read (Memory.write m a v) b = Memory.read m b := by
  unfold Memory.write; split
  · exact Memory.read_insert_ne m v h
  · rfl

/-- No cell of the list has the address. -/
theorem Memory.read_of_lt {m : Memory} {a : Nat} (h : ∀ c ∈ m, a < c.1) : Memory.read m a = Memory.initial a := by
  induction m with
  | nil => rfl
  | cons c rest ih =>
    obtain ⟨k, w⟩ := c
    have hk : a < k := h (k, w) (by simp)
    simp only [Memory.read, if_neg (Nat.ne_of_gt hk)]
    exact ih (fun c hc => h c (by simp [hc]))

theorem Memory.read_cons_same {rest : Memory} {a : Nat} (v : Byte) (h : ∀ c ∈ rest, a < c.1) :
    Memory.read (Memory.cons a v rest) a = v := by
  unfold Memory.cons; split
  · next hv => rw [Memory.read_of_lt h, hv]
  · simp [Memory.read]

theorem Memory.read_insert_same {m : Memory} (hm : m.Pairwise (fun c d => c.1 < d.1)) (a : Nat) (v : Byte) :
    Memory.read (Memory.insert m a v) a = v := by
  induction m with
  | nil => exact Memory.read_cons_same v (by simp)
  | cons c rest ih =>
    obtain ⟨k, w⟩ := c
    rw [List.pairwise_cons] at hm
    simp only [Memory.insert]
    split
    · next hk =>
      refine Memory.read_cons_same v (fun c hc => ?_)
      rcases List.mem_cons.mp hc with rfl | hc
      · exact hk
      · exact Nat.lt_trans hk (hm.1 c hc)
    · split
      · next hk => subst hk; exact Memory.read_cons_same v hm.1
      · next hne => simp only [Memory.read, if_neg (Ne.symm hne)]; exact ih hm.2

/-- A read of the byte just written gives it, in a canonical memory. -/
theorem Memory.read_write_same {m : Memory} (hm : m.wf) {a : Nat} (ha : a < memorySize) (v : Byte) :
    Memory.read (Memory.write m a v) a = v := by
  unfold Memory.write; rw [if_pos ha]; exact Memory.read_insert_same hm.1 a v

theorem Memory.mem_cons {a : Nat} {v : Byte} {rest : Memory} {c : Host.Cell} (h : c ∈ Memory.cons a v rest) :
    c ∈ rest ∨ c = (a, v) ∧ v ≠ Memory.initial a := by
  unfold Memory.cons at h; split at h
  · exact .inl h
  · next hv => rcases List.mem_cons.mp h with rfl | h
               · exact .inr ⟨rfl, hv⟩
               · exact .inl h

theorem Memory.mem_insert {m : Memory} {a : Nat} {v : Byte} {c : Host.Cell} (h : c ∈ Memory.insert m a v) :
    c ∈ m ∨ c = (a, v) ∧ v ≠ Memory.initial a := by
  induction m with
  | nil => exact (Memory.mem_cons h).imp_left (by simp)
  | cons d rest ih =>
    obtain ⟨k, w⟩ := d
    simp only [Memory.insert] at h
    split at h
    · exact Memory.mem_cons h
    · split at h
      · exact (Memory.mem_cons h).imp_left (fun h => List.mem_cons_of_mem _ h)
      · rcases List.mem_cons.mp h with rfl | h
        · exact .inl (by simp)
        · exact (ih h).imp_left (fun h => List.mem_cons_of_mem _ h)

theorem Memory.cons_pairwise {a : Nat} (v : Byte) {rest : Memory} (hr : rest.Pairwise (fun c d => c.1 < d.1))
    (h : ∀ c ∈ rest, a < c.1) : (Memory.cons a v rest).Pairwise (fun c d => c.1 < d.1) := by
  unfold Memory.cons; split
  · exact hr
  · exact List.pairwise_cons.mpr ⟨h, hr⟩

theorem Memory.insert_pairwise {m : Memory} (hm : m.Pairwise (fun c d => c.1 < d.1)) (a : Nat) (v : Byte) :
    (Memory.insert m a v).Pairwise (fun c d => c.1 < d.1) := by
  induction m with
  | nil => exact Memory.cons_pairwise v .nil (by simp)
  | cons c rest ih =>
    obtain ⟨k, w⟩ := c
    have hp := List.pairwise_cons.mp hm
    simp only [Memory.insert]
    split
    · next hk =>
      refine Memory.cons_pairwise v hm (fun c hc => ?_)
      rcases List.mem_cons.mp hc with rfl | hc
      · exact hk
      · exact Nat.lt_trans hk (hp.1 c hc)
    · split
      · next hk => subst hk; exact Memory.cons_pairwise v hp.2 hp.1
      · refine List.pairwise_cons.mpr ⟨fun c hc => ?_, ih hp.2⟩
        rcases Memory.mem_insert hc with hc | ⟨rfl, -⟩
        · exact hp.1 c hc
        · simp only; omega

/-- A write keeps the canonical form. -/
theorem Memory.write_wf {m : Memory} (hm : m.wf) (a : Nat) (v : Byte) : (Memory.write m a v).wf := by
  unfold Memory.write; split
  · next ha =>
    refine ⟨Memory.insert_pairwise hm.1 a v, fun c hc => ?_⟩
    rcases Memory.mem_insert hc with hc | ⟨rfl, hv⟩
    · exact hm.2 c hc
    · exact ⟨ha, hv⟩
  · exact hm

/-- A block of writes keeps the canonical form. -/
theorem Memory.writeBytes_wf {m : Memory} (hm : m.wf) (a : Nat) (bytes : List Byte) :
    (Memory.writeBytes m a bytes).wf := by
  induction bytes generalizing m a with
  | nil => exact hm
  | cons v vs ih => exact ih (Memory.write_wf hm a v) (a + 1)

/-- A block of writes leaves every byte outside the block alone. -/
theorem Memory.read_writeBytes_outside (m : Memory) {a b : Nat} (bytes : List Byte)
    (h : b < a ∨ a + bytes.length ≤ b) : Memory.read (Memory.writeBytes m a bytes) b = Memory.read m b := by
  induction bytes generalizing m a with
  | nil => rfl
  | cons v vs ih =>
    simp only [List.length_cons] at h
    rw [Memory.writeBytes, ih _ (by omega), Memory.read_write_ne _ _ (by omega)]

/-- A block of writes puts each byte in its place, in a canonical memory. -/
theorem Memory.read_writeBytes_inside {m : Memory} (hm : m.wf) {a k : Nat} (bytes : List Byte)
    (hk : k < bytes.length) (ha : a + bytes.length ≤ memorySize) :
    Memory.read (Memory.writeBytes m a bytes) (a + k) = bytes[k] := by
  induction bytes generalizing m a k with
  | nil => simp at hk
  | cons v vs ih =>
    simp only [List.length_cons] at hk ha
    rw [Memory.writeBytes]
    cases k with
    | zero => rw [Memory.read_writeBytes_outside _ _ (by omega)]; exact Memory.read_write_same hm (by omega) v
    | succ k =>
      rw [show a + (k + 1) = a + 1 + k by omega]
      simpa using ih (Memory.write_wf hm a v) (k := k) (by omega) (by omega)

/-- Above the font every unlisted byte reads as 0 (10_state.md R75). -/
theorem Memory.initial_above_font {a : Nat} (h : fontSize ≤ a) : Memory.initial a = 0 := by
  have hl : Config.font.length = 80 := by decide
  replace h : 80 ≤ a := h
  simp only [Memory.initial, List.getD_eq_getElem?_getD]
  rw [List.getElem?_eq_none (by omega)]; rfl

/-- No violation: every address of the access is below memory size (20_memory.md R86). -/
theorem rangeViolation_eq_none_iff (base count : Nat) :
    rangeViolation base count = none ↔ count = 0 ∨ base + count ≤ memorySize := by
  simp only [rangeViolation, dataAddresses, List.find?_eq_none, List.mem_map, List.mem_range, decide_eq_true_eq]
  constructor
  · intro h
    rcases Nat.eq_zero_or_pos count with h0 | h0
    · exact .inl h0
    · have := h _ ⟨count - 1, by omega, rfl⟩; right; omega
  · rintro h _ ⟨k, hk, rfl⟩; omega

theorem find?_range_add (base count : Nat) (p : Nat → Bool) (k : Nat) (hk : k < count) (hp : p (base + k) = true)
    (hlow : ∀ j < k, p (base + j) = false) : (dataAddresses base count).find? p = some (base + k) := by
  rw [dataAddresses, List.find?_map, List.find?_range_eq_some.mpr ⟨by simpa using hp, by simpa using hk, ?_⟩]
  · rfl
  · intro j hj; simpa using hlow j hj

/-- A violation names the lowest address of the access at or beyond memory size (20_memory.md R86). -/
theorem rangeViolation_eq_some {base count : Nat} (h0 : 0 < count) (h : memorySize < base + count) :
    rangeViolation base count = some (max base memorySize) := by
  replace h : 0x1000 < base + count := h
  have := find?_range_add base count (fun a => decide (0x1000 ≤ a)) (max base 0x1000 - base) (by omega)
    (by simp) (by intro j hj; simp; omega)
  rw [show max base memorySize = base + (max base 0x1000 - base) by simp only [memorySize]; omega]
  exact this

/-- No address of the access lies in the font ROM (20_memory.md R87). -/
theorem romViolation_eq_none {base : Nat} (count : Nat) (h : fontSize ≤ base) : romViolation base count = none := by
  simp only [romViolation, dataAddresses, List.find?_eq_none, List.mem_map, List.mem_range, decide_eq_true_eq]
  rintro _ ⟨k, hk, rfl⟩; omega

/-- An access that starts in the font ROM violates it at its first address (20_memory.md R87). -/
theorem romViolation_eq_some {base count : Nat} (h0 : 0 < count) (h : base < fontSize) :
    romViolation base count = some base := by
  simpa [romViolation] using find?_range_add base count (fun a => decide (a < fontSize)) 0 h0 (by simpa using h) (by simp)

end Sys2Proof.Machine
end

