-- ==== Sys2Proof/Laws/Ops.lean ====
section
/-!
SUPPORT. For each shared operation, everything it can do: the checked accesses, choosing a key, the step.
-/

namespace Sys2Proof.Machine

/-- A checked read completes, or reports MEMORY_RANGE (20_memory.md R86). -/
theorem State.checkRead_cases (s : State) (i : Instr) (count : Nat) (done : State) :
    (s.checkRead i count done = done ∧ (count = 0 ∨ s.i.toNat + count ≤ memorySize)) ∨
    ∃ a, s.checkRead i count done = s.raise i .memoryRange a := by
  unfold State.checkRead
  split
  · next a _ => exact .inr ⟨a, rfl⟩
  · next h => exact .inl ⟨rfl, (rangeViolation_eq_none_iff _ _).mp h⟩

/-- A checked write completes above the font, or reports MEMORY_RANGE or ROM_WRITE (20_memory.md R86, R87). -/
theorem State.checkWrite_cases (s : State) (i : Instr) {count : Nat} (h0 : 0 < count) (done : State) :
    (s.checkWrite i count done = done ∧ s.i.toNat + count ≤ memorySize ∧ fontSize ≤ s.i.toNat) ∨
    (∃ a, s.checkWrite i count done = s.raise i .memoryRange a) ∨
    ∃ a, s.checkWrite i count done = s.raise i .romWrite a := by
  unfold State.checkWrite
  split
  · next a _ =>
    rcases s.checkRead_cases i count (s.raise i .romWrite a) with ⟨h, -⟩ | ⟨b, h⟩
    · exact .inr (.inr ⟨a, h⟩)
    · exact .inr (.inl ⟨b, h⟩)
  · next hr =>
    rcases s.checkRead_cases i count done with ⟨h, hc⟩ | ⟨b, h⟩
    · refine .inl ⟨h, by omega, ?_⟩
      by_contra hf
      rw [romViolation_eq_some h0 (Nat.lt_of_not_le hf)] at hr
      cases hr
    · exact .inr (.inl ⟨b, h⟩)

/-- A checked read with every address legal. -/
theorem State.checkRead_ok (s : State) (i : Instr) {count : Nat} (done : State)
    (h : count = 0 ∨ s.i.toNat + count ≤ memorySize) : s.checkRead i count done = done := by
  simp only [State.checkRead, (rangeViolation_eq_none_iff _ _).mpr h]

/-- A checked read with an address at or beyond memory size (20_memory.md R86). -/
theorem State.checkRead_range (s : State) (i : Instr) {count : Nat} (done : State) (h0 : 0 < count)
    (h : memorySize < s.i.toNat + count) :
    s.checkRead i count done = s.raise i .memoryRange (max s.i.toNat memorySize) := by
  simp only [State.checkRead, rangeViolation_eq_some h0 h]

/-- A checked write with every address legal and above the font. -/
theorem State.checkWrite_ok (s : State) (i : Instr) {count : Nat} (done : State)
    (h : s.i.toNat + count ≤ memorySize) (hf : fontSize ≤ s.i.toNat) : s.checkWrite i count done = done := by
  rw [State.checkWrite, State.checkRead_ok _ _ _ (.inr h), romViolation_eq_none _ hf]

/-- A checked write with an address at or beyond memory size (20_memory.md R86). -/
theorem State.checkWrite_range (s : State) (i : Instr) {count : Nat} (done : State) (h0 : 0 < count)
    (h : memorySize < s.i.toNat + count) :
    s.checkWrite i count done = s.raise i .memoryRange (max s.i.toNat memorySize) :=
  State.checkRead_range s i _ h0 h

/-- A checked write that starts in the font ROM (20_memory.md R87). -/
theorem State.checkWrite_rom (s : State) (i : Instr) {count : Nat} (done : State) (h0 : 0 < count)
    (h : s.i.toNat + count ≤ memorySize) (hf : s.i.toNat < fontSize) :
    s.checkWrite i count done = s.raise i .romWrite s.i.toNat := by
  rw [State.checkWrite, State.checkRead_ok _ _ _ (.inr h), romViolation_eq_some h0 hf]

/-- The pressed keys are the numbers 0..15 whose K is true (44_keypad_timers.md R286). -/
theorem State.mem_pressedKeys (s : State) (k : Nat) : k ∈ s.pressedKeys ↔ ∃ h : k < 16, s.keys[k] = true := by
  simp only [State.pressedKeys, State.keyPressed, List.mem_filter, List.mem_range]
  constructor
  · rintro ⟨h, hk⟩; exact ⟨h, by simpa [h] using hk⟩
  · rintro ⟨h, hk⟩; exact ⟨h, by simpa [h] using hk⟩

/-- The key chosen is one of the pressed ones, whatever the free choice is (44_keypad_timers.md R287). -/
theorem State.chooseKey_mem (s : State) {ks : List Nat} (h : ks ≠ []) : s.chooseKey ks ∈ ks := by
  match ks with
  | [] => exact absurd rfl h
  | [k] => simp [State.chooseKey]
  | k :: l :: ks =>
    have hlt : Config.keyChoice s.draws % (k :: l :: ks).length < (k :: l :: ks).length :=
      Nat.mod_lt _ (by simp)
    simp only [State.chooseKey, List.getD_eq_getElem?_getD, List.getElem?_eq_getElem hlt, Option.getD_some]
    exact List.getElem_mem hlt

/-- A 12-bit target is never out of range (40_control_flow.md R164). -/
@[simp] theorem targetOf_toNat (nnn : Addr12) : (targetOf nnn).toNat = nnn.toNat := by
  simp only [targetOf, BitVec.toNat_setWidth]; omega

@[simp] theorem targetOutOfRange_targetOf (nnn : Addr12) : targetOutOfRange nnn.toNat = false := by
  have := nnn.isLt
  rw [Bool.eq_false_iff, ne_eq, targetOutOfRange_iff]; omega

/-- Everything a step can do: nothing when halted, fail the fetch, run an instruction, or report an UNKNOWN word. -/
theorem step_cases (s : State) :
    (s.halted = true ∧ step s = .next s) ∨
    (s.halted = false ∧ s.fetchFails = true ∧ step s = .next s.failFetch) ∨
    (s.halted = false ∧ s.fetchFails = false ∧ ∃ i, decodeWord s.fetchWord = .ok i ∧ step s = exec i s.advance) ∨
    (s.halted = false ∧ s.fetchFails = false ∧ decodeWord s.fetchWord = .error (.unknown s.fetchWord) ∧
      step s = .next (s.advance.raiseUnknown s.fetchWord)) := by
  unfold step
  cases hh : s.halted
  · cases hf : s.fetchFails
    · cases hd : decodeWord s.fetchWord with
      | ok i => exact .inr (.inr (.inl ⟨rfl, rfl, i, rfl, rfl⟩))
      | error e => rw [decodeWord_error hd]; exact .inr (.inr (.inr ⟨rfl, rfl, rfl, rfl⟩))
    · exact .inr (.inl ⟨rfl, rfl, rfl⟩)
  · exact .inl ⟨rfl, rfl⟩

/-- The fetch address of a report is PC less fetch's advance (60_exceptions.md R302). -/
@[simp] theorem State.pcFetch_advance (s : State) : s.advance.pcFetch = s.pc := by
  simp only [State.pcFetch, State.advance_pc]; bv_omega

end Sys2Proof.Machine
end

