-- ==== Sys2Proof/Laws/Exec.lean ====
section
/-!
SUPPORT. Said once: everything an instruction can do. `Effect i s t` is the completed instruction, `exec_cases` the inversion
of exec: it reports, or it completes.
-/

namespace Sys2Proof.Machine

/-- The instruction `i`, started in `s`, completes in `t`. -/
def Effect (i : Instr) (s t : State) : Prop :=
  match i with
  | .cls => t = { s with display := Display.blank }
  | .ret => 0 < s.sp.toNat ∧ s.sp.toNat ≤ 16 ∧ t = s.popToPc
  | .jp nnn => t = s.setPc (targetOf nnn)
  | .call nnn => s.sp.toNat < 16 ∧ t = (s.push s.pc).setPc (targetOf nnn)
  | .seImm x nn => t = s.skipIf (s.reg x == nn)
  | .sneImm x nn => t = s.skipIf (s.reg x != nn)
  | .seReg x y => t = s.skipIf (s.reg x == s.reg y)
  | .ldImm x nn => t = s.setReg x nn
  | .addImm x nn => t = s.setReg x (addResult (s.reg x) nn)
  | .ldReg x y => t = s.setReg x (s.reg y)
  | .orReg x y => t = s.setReg x (s.reg x ||| s.reg y)
  | .andReg x y => t = s.setReg x (s.reg x &&& s.reg y)
  | .xorReg x y => t = s.setReg x (s.reg x ^^^ s.reg y)
  | .addReg x y => t = s.setRegThenFlag x (addResult (s.reg x) (s.reg y)) (addCarry (s.reg x) (s.reg y))
  | .subReg x y => t = s.setRegThenFlag x (subResult (s.reg x) (s.reg y)) (noBorrow (s.reg x) (s.reg y))
  | .shr x y => t = s.setRegThenFlag x (shiftRight (s.shiftSource x y)) (rightBitOut (s.shiftSource x y))
  | .subnReg x y => t = s.setRegThenFlag x (subResult (s.reg y) (s.reg x)) (noBorrow (s.reg y) (s.reg x))
  | .shl x y => t = s.setRegThenFlag x (shiftLeft (s.shiftSource x y)) (leftBitOut (s.shiftSource x y))
  | .sneReg x y => t = s.skipIf (s.reg x != s.reg y)
  | .ldI nnn => t = s.setIndex (targetOf nnn)
  | .jpV0 nnn => s.offsetTarget nnn < 0x1000 ∧ t = s.setPc (BitVec.ofNat 16 (s.offsetTarget nnn))
  | .rnd x nn => t = (s.setReg x (Config.randomByte s.draws &&& nn)).countDraw
  | .drw x y n => (n.toNat = 0 ∨ s.i.toNat + n.toNat ≤ 0x1000) ∧ t = s.drawSprite x y n
  | .skp x => (s.reg x).toNat < 16 ∧ t = s.skipIf (s.keyPressed (s.keyIndex x))
  | .sknp x => (s.reg x).toNat < 16 ∧ t = s.skipIf (!s.keyPressed (s.keyIndex x))
  | .ldVxDt x => t = s.setReg x s.dt
  | .ldVxK x =>
    (s.pressedKeys = [] ∧ t = s.setPc s.pcFetch) ∨
    (s.pressedKeys ≠ [] ∧ t = (s.setReg x (BitVec.ofNat 8 (s.chooseKey s.pressedKeys))).countDraw)
  | .ldDtVx x => t = s.setDelay (s.reg x)
  | .ldStVx x => t = s.setSound (s.reg x)
  | .addI x => t = (s.setIndex (s.fx1eWrap.narrow (s.indexSum x))).setFlag (indexOverflow (s.indexSum x))
  | .ldF x => t = s.setIndex (glyphAddress (s.reg x))
  | .ldB x => 0x50 ≤ s.i.toNat ∧ s.i.toNat + 3 ≤ 0x1000 ∧ t = s.storeAtIndex (decimalDigits (s.reg x))
  | .storeRegs x =>
    0x50 ≤ s.i.toNat ∧ s.i.toNat + (x.toNat + 1) ≤ 0x1000 ∧ t = (s.storeAtIndex (s.regBlock x)).bumpIndex x
  | .loadRegs x => s.i.toNat + (x.toNat + 1) ≤ 0x1000 ∧ t = (s.loadBlock x).bumpIndex x

/-- A checked read, answering `t`: it reports, or `t` is the completed state. -/
theorem State.checkRead_next {s done t : State} {i : Instr} {count : Nat}
    (h : (Host.Outcome.next (s.checkRead i count done) : Host.Outcome State Fault Refusal) = .next t) :
    (∃ code info, code ≠ .fetchRange ∧ t = s.raise i code info) ∨
    ((count = 0 ∨ s.i.toNat + count ≤ 0x1000) ∧ t = done) := by
  cases h
  rcases s.checkRead_cases i count done with ⟨e, hc⟩ | ⟨a, e⟩
  · exact .inr ⟨hc, e⟩
  · exact .inl ⟨.memoryRange, a, by decide, e⟩

/-- A checked write, answering `t`: it reports, or `t` is the completed state. -/
theorem State.checkWrite_next {s done t : State} {i : Instr} {count : Nat} (h0 : 0 < count)
    (h : (Host.Outcome.next (s.checkWrite i count done) : Host.Outcome State Fault Refusal) = .next t) :
    (∃ code info, code ≠ .fetchRange ∧ t = s.raise i code info) ∨
    (0x50 ≤ s.i.toNat ∧ s.i.toNat + count ≤ 0x1000 ∧ t = done) := by
  cases h
  rcases s.checkWrite_cases i h0 done with ⟨e, hc, hf⟩ | ⟨a, e⟩ | ⟨a, e⟩
  · exact .inr ⟨hf, hc, e⟩
  · exact .inl ⟨.memoryRange, a, by decide, e⟩
  · exact .inl ⟨.romWrite, a, by decide, e⟩

/-- Everything an instruction can do when it answers a next state: raise a report (never FETCH_RANGE) and change nothing
else, or complete. -/
theorem exec_cases {i : Instr} {s t : State} (h : exec i s = .next t) :
    (∃ code info, code ≠ .fetchRange ∧ t = s.raise i code info) ∨ Effect i s t := by
  cases i
  case ret =>
    simp only [exec, execRet] at h
    split at h
    · cases h; exact .inl ⟨.stackUnderflow, 0, by decide, rfl⟩
    · split at h
      · cases h
      · cases h; exact .inr ⟨by omega, by omega, rfl⟩
  case call nnn =>
    simp only [exec, execCall, targetOf_toNat, targetOutOfRange_targetOf, Bool.false_eq_true, if_false] at h
    split at h
    · cases h; exact .inl ⟨.stackOverflow, 16, by decide, rfl⟩
    · split at h
      · cases h
      · cases h; exact .inr ⟨by omega, rfl⟩
  case jp nnn =>
    simp only [exec, execJp, targetOf_toNat, targetOutOfRange_targetOf, Bool.false_eq_true, if_false] at h
    cases h; exact .inr rfl
  case ldI nnn =>
    simp only [exec, execLdI, targetOf_toNat, targetOutOfRange_targetOf, Bool.false_eq_true, if_false] at h
    cases h; exact .inr rfl
  case jpV0 nnn =>
    simp only [exec, execJpV0] at h
    split at h
    · cases h; exact .inl ⟨.addressRange, _, by decide, rfl⟩
    · next hn => cases h; exact .inr ⟨by simpa using hn, rfl⟩
  case skp x =>
    simp only [exec, execSkp] at h
    split at h
    · cases h; exact .inl ⟨.keyRange, _, by decide, rfl⟩
    · next hn => cases h; exact .inr ⟨by simpa using hn, rfl⟩
  case sknp x =>
    simp only [exec, execSknp] at h
    split at h
    · cases h; exact .inl ⟨.keyRange, _, by decide, rfl⟩
    · next hn => cases h; exact .inr ⟨by simpa using hn, rfl⟩
  case ldVxK x =>
    simp only [exec, execLdVxK] at h
    split at h
    · next hk => cases h; exact .inr (.inl ⟨hk, rfl⟩)
    · next hk => cases h; exact .inr (.inr ⟨hk, rfl⟩)
  case drw x y n => exact State.checkRead_next h
  case loadRegs x => exact (State.checkRead_next h).imp_right (fun ⟨hc, e⟩ => ⟨by omega, e⟩)
  case ldB x => exact State.checkWrite_next (by omega) h
  case storeRegs x => exact State.checkWrite_next (by omega) h
  all_goals (cases h; exact .inr rfl)

/-- No instruction stops the machine while SP is at most 16 (10_state.md R42, 60_exceptions.md R300). -/
theorem exec_answers (i : Instr) {s : State} (h : s.StackPointerOk) : ∃ t, exec i s = .next t := by
  cases i
  case ret => simp only [exec, execRet]; split; exact ⟨_, rfl⟩; rw [if_neg (by omega)]; exact ⟨_, rfl⟩
  case call nnn =>
    simp only [exec, execCall]; split; exact ⟨_, rfl⟩; split; exact ⟨_, rfl⟩; rw [if_neg (by omega)]; exact ⟨_, rfl⟩
  case jp nnn => simp only [exec, execJp]; split <;> exact ⟨_, rfl⟩
  case ldI nnn => simp only [exec, execLdI]; split <;> exact ⟨_, rfl⟩
  case jpV0 nnn => simp only [exec, execJpV0]; split <;> exact ⟨_, rfl⟩
  case skp x => simp only [exec, execSkp]; split <;> exact ⟨_, rfl⟩
  case sknp x => simp only [exec, execSknp]; split <;> exact ⟨_, rfl⟩
  case ldVxK x => simp only [exec, execLdVxK]; split <;> exact ⟨_, rfl⟩
  all_goals exact ⟨_, rfl⟩

end Sys2Proof.Machine
end

