-- ==== Sys2Proof/Laws/PerInstr.lean ====
section
/-!
SUPPORT. Statements for every instruction, one lemma per constructor. EncodedRow: the encoding of every instruction has the
fixed bits of its own row of spec/opcode_table.json (30_encoding.md R135).
-/

namespace Sys2Proof.Laws.EncodedRow

/-- The instruction's encoding fits its row of the opcode map. -/
def Statement (i : Instr) : Prop := i.row.fits (encode i) = true

/-- The family mask on the layout NNN. -/
theorem mask_nnn (f : Nibble) (nnn : Addr12) : (f ++ nnn : Word) &&& 0xF000 = f ++ 0#12 := by
  change (f ++ nnn) &&& (0xF#4 ++ 0#12) = _
  rw [BitVec.and_append, BitVec.and_zero, show (0xF#4 : Nibble) = BitVec.allOnes 4 from rfl, BitVec.and_allOnes]

/-- The family mask on the layout XNN. -/
theorem mask_xnn (f x : Nibble) (nn : Byte) : (f ++ x ++ nn : Word) &&& 0xF000 = f ++ 0#12 := by
  change (f ++ x ++ nn) &&& (0xF#4 ++ 0#4 ++ 0#8) = _
  rw [BitVec.and_append, BitVec.and_append, BitVec.and_zero, BitVec.and_zero,
    show (0xF#4 : Nibble) = BitVec.allOnes 4 from rfl, BitVec.and_allOnes]
  grind

/-- The family mask on the layout XYN. -/
theorem mask_xyn (f x y n : Nibble) : (f ++ x ++ y ++ n : Word) &&& 0xF000 = f ++ 0#12 := by
  change ((f ++ x ++ y ++ n) &&& (0xF#4 ++ 0#4 ++ 0#4 ++ 0#4) : Word) = _
  rw [BitVec.and_append, BitVec.and_append, BitVec.and_append, BitVec.and_zero, BitVec.and_zero, BitVec.and_zero,
    show (0xF#4 : Nibble) = BitVec.allOnes 4 from rfl, BitVec.and_allOnes]
  grind

/-- The family and selector mask on the layout XYS. -/
theorem mask_xys (f x y n : Nibble) : (f ++ x ++ y ++ n : Word) &&& 0xF00F = f ++ 0#4 ++ 0#4 ++ n := by
  change ((f ++ x ++ y ++ n) &&& (0xF#4 ++ 0#4 ++ 0#4 ++ 0xF#4) : Word) = _
  rw [BitVec.and_append, BitVec.and_append, BitVec.and_append, BitVec.and_zero, BitVec.and_zero,
    show (0xF#4 : Nibble) = BitVec.allOnes 4 from rfl, BitVec.and_allOnes, BitVec.and_allOnes]

/-- The family and selector mask on the layout XSS. -/
theorem mask_xss (f x : Nibble) (nn : Byte) : (f ++ x ++ nn : Word) &&& 0xF0FF = f ++ 0#4 ++ nn := by
  change (f ++ x ++ nn) &&& (0xF#4 ++ 0#4 ++ 0xFF#8) = _
  rw [BitVec.and_append, BitVec.and_append, BitVec.and_zero, show (0xF#4 : Nibble) = BitVec.allOnes 4 from rfl,
    show (0xFF#8 : Byte) = BitVec.allOnes 8 from rfl, BitVec.and_allOnes, BitVec.and_allOnes]

theorem cls : Statement .cls := rfl
theorem ret : Statement .ret := rfl
theorem jp (nnn : Addr12) : Statement (.jp nnn) := beq_iff_eq.mpr (mask_nnn ..)
theorem call (nnn : Addr12) : Statement (.call nnn) := beq_iff_eq.mpr (mask_nnn ..)
theorem seImm (x : Nibble) (nn : Byte) : Statement (.seImm x nn) := beq_iff_eq.mpr (mask_xnn ..)
theorem sneImm (x : Nibble) (nn : Byte) : Statement (.sneImm x nn) := beq_iff_eq.mpr (mask_xnn ..)
theorem seReg (x y : Nibble) : Statement (.seReg x y) := beq_iff_eq.mpr (mask_xys ..)
theorem ldImm (x : Nibble) (nn : Byte) : Statement (.ldImm x nn) := beq_iff_eq.mpr (mask_xnn ..)
theorem addImm (x : Nibble) (nn : Byte) : Statement (.addImm x nn) := beq_iff_eq.mpr (mask_xnn ..)
theorem ldReg (x y : Nibble) : Statement (.ldReg x y) := beq_iff_eq.mpr (mask_xys ..)
theorem orReg (x y : Nibble) : Statement (.orReg x y) := beq_iff_eq.mpr (mask_xys ..)
theorem andReg (x y : Nibble) : Statement (.andReg x y) := beq_iff_eq.mpr (mask_xys ..)
theorem xorReg (x y : Nibble) : Statement (.xorReg x y) := beq_iff_eq.mpr (mask_xys ..)
theorem addReg (x y : Nibble) : Statement (.addReg x y) := beq_iff_eq.mpr (mask_xys ..)
theorem subReg (x y : Nibble) : Statement (.subReg x y) := beq_iff_eq.mpr (mask_xys ..)
theorem shr (x y : Nibble) : Statement (.shr x y) := beq_iff_eq.mpr (mask_xys ..)
theorem subnReg (x y : Nibble) : Statement (.subnReg x y) := beq_iff_eq.mpr (mask_xys ..)
theorem shl (x y : Nibble) : Statement (.shl x y) := beq_iff_eq.mpr (mask_xys ..)
theorem sneReg (x y : Nibble) : Statement (.sneReg x y) := beq_iff_eq.mpr (mask_xys ..)
theorem ldI (nnn : Addr12) : Statement (.ldI nnn) := beq_iff_eq.mpr (mask_nnn ..)
theorem jpV0 (nnn : Addr12) : Statement (.jpV0 nnn) := beq_iff_eq.mpr (mask_nnn ..)
theorem rnd (x : Nibble) (nn : Byte) : Statement (.rnd x nn) := beq_iff_eq.mpr (mask_xnn ..)
theorem drw (x y n : Nibble) : Statement (.drw x y n) := beq_iff_eq.mpr (mask_xyn ..)
theorem skp (x : Nibble) : Statement (.skp x) := beq_iff_eq.mpr (mask_xss ..)
theorem sknp (x : Nibble) : Statement (.sknp x) := beq_iff_eq.mpr (mask_xss ..)
theorem ldVxDt (x : Nibble) : Statement (.ldVxDt x) := beq_iff_eq.mpr (mask_xss ..)
theorem ldVxK (x : Nibble) : Statement (.ldVxK x) := beq_iff_eq.mpr (mask_xss ..)
theorem ldDtVx (x : Nibble) : Statement (.ldDtVx x) := beq_iff_eq.mpr (mask_xss ..)
theorem ldStVx (x : Nibble) : Statement (.ldStVx x) := beq_iff_eq.mpr (mask_xss ..)
theorem addI (x : Nibble) : Statement (.addI x) := beq_iff_eq.mpr (mask_xss ..)
theorem ldF (x : Nibble) : Statement (.ldF x) := beq_iff_eq.mpr (mask_xss ..)
theorem ldB (x : Nibble) : Statement (.ldB x) := beq_iff_eq.mpr (mask_xss ..)
theorem storeRegs (x : Nibble) : Statement (.storeRegs x) := beq_iff_eq.mpr (mask_xss ..)
theorem loadRegs (x : Nibble) : Statement (.loadRegs x) := beq_iff_eq.mpr (mask_xss ..)

end Sys2Proof.Laws.EncodedRow
end

