-- ==== Sys2Proof/Tests/Slice0.lean ====
section
/-!
SUPPORT. The tests: ill-formed words and images, every constructor's decoding from a word written out bit by bit, single steps
with the results of 95_test_vectors.md (T-… and L1-…), and a witness for each clause of the statements that have hypotheses.
-/

set_option maxRecDepth 8000

namespace Sys2Proof.Tests

open Sys2Proof Sys2Proof.Machine

/-! ### Helpers -/

/-- The default start state of 95_test_vectors.md with the instruction word at PC. -/
def start (w : Word) : State := State.reset.placeWord w

/-- The default start state with PC at `a` and the instruction word there. -/
def startAt (a w : Word) : State := State.placeWord { State.reset with pc := a } w

/-- `s` with the quirk switches QUIRK_SHIFT_VY, QUIRK_LOADSTORE_INC, QUIRK_JUMP_VX. -/
def quirky (shiftVy loadStoreInc jumpVx : Bool) (s : State) : State :=
  { s with quirks := ⟨shiftVy, loadStoreInc, jumpVx⟩ }

/-- V[x] and V[y] set. -/
def regs (x : Nibble) (a : Byte) (y : Nibble) (b : Byte) (s : State) : State := (s.setReg x a).setReg y b

/-- One step from `s` answers a next state with the property. -/
def stepsTo (s : State) (p : State → Bool) : Bool :=
  match step s with
  | .next t => p t
  | .fault _ => false
  | .refused _ => false

/-- One step from `s` appends exactly this report and leaves PC at PC_fetch + 2 and the registers as they were. -/
def reports (s : State) (code : ReportCode) (w : Word) (info : Nat) : Bool :=
  stepsTo s (fun t => t.log == s.log ++ [⟨code, s.pc, some w, info⟩] && t.pc == s.pc + 2 && t.v == s.v && t.i == s.i
    && t.mem == s.mem && t.sp == s.sp && !t.halted)

/-! ### WellFormed: each check refuses an ill-formed term (T-F7 to T-F14) -/

theorem test_illFormed_family0 : wordWellFormed 0x0000 = false ∧ wordWellFormed 0x0123 = false ∧
    wordWellFormed 0x00E1 = false ∧ wordWellFormed 0x00EF = false ∧ wordWellFormed 0x01E0 = false := by decide
theorem test_illFormed_5_and_9 : wordWellFormed 0x5121 = false ∧ wordWellFormed 0x9121 = false := by decide
theorem test_illFormed_family8 : wordWellFormed 0x8008 = false ∧ wordWellFormed 0x800C = false ∧
    wordWellFormed 0x800F = false := by decide
theorem test_illFormed_familyE : wordWellFormed 0xE000 = false ∧ wordWellFormed 0xE09F = false ∧
    wordWellFormed 0xE0A2 = false := by decide
theorem test_illFormed_familyF : wordWellFormed 0xF000 = false ∧ wordWellFormed 0xF001 = false ∧
    wordWellFormed 0xF0FF = false ∧ wordWellFormed 0xF01F = false := by decide
theorem test_illFormed_image_empty : imageWellFormed [] = false := by decide
theorem test_illFormed_image_long : imageWellFormed (List.replicate 3585 0) = false := by
  simp only [imageWellFormed, List.length_replicate]; decide
theorem test_wellFormed_image_largest : imageWellFormed (List.replicate 3584 0) = true := by
  simp only [imageWellFormed, List.length_replicate]; decide

/-! ### Decoding: every constructor, from the bits of 30_encoding.md R123 and R135 -/

theorem test_decode_cls : decodeWord 0b0000000011100000 = .ok .cls := by decide
theorem test_decode_ret : decodeWord 0b0000000011101110 = .ok .ret := by decide
theorem test_decode_jp : decodeWord 0b0001001000110100 = .ok (.jp 0x234) := by decide
theorem test_decode_call : decodeWord 0b0010111111111110 = .ok (.call 0xFFE) := by decide
theorem test_decode_seImm : decodeWord 0b0011001100000101 = .ok (.seImm 0x3 0x05) := by decide
theorem test_decode_sneImm : decodeWord 0b0100110010000001 = .ok (.sneImm 0xC 0x81) := by decide
theorem test_decode_seReg : decodeWord 0b0101000100100000 = .ok (.seReg 0x1 0x2) := by decide
theorem test_decode_ldImm : decodeWord 0b0110101001111110 = .ok (.ldImm 0xA 0x7E) := by decide
theorem test_decode_addImm : decodeWord 0b0111000000000010 = .ok (.addImm 0x0 0x02) := by decide
theorem test_decode_ldReg : decodeWord 0b1000000100100000 = .ok (.ldReg 0x1 0x2) := by decide
theorem test_decode_orReg : decodeWord 0b1000000100100001 = .ok (.orReg 0x1 0x2) := by decide
theorem test_decode_andReg : decodeWord 0b1000000100100010 = .ok (.andReg 0x1 0x2) := by decide
theorem test_decode_xorReg : decodeWord 0b1000000100100011 = .ok (.xorReg 0x1 0x2) := by decide
theorem test_decode_addReg : decodeWord 0b1000000100100100 = .ok (.addReg 0x1 0x2) := by decide
theorem test_decode_subReg : decodeWord 0b1000000100100101 = .ok (.subReg 0x1 0x2) := by decide
theorem test_decode_shr : decodeWord 0b1000000100100110 = .ok (.shr 0x1 0x2) := by decide
theorem test_decode_subnReg : decodeWord 0b1000000100100111 = .ok (.subnReg 0x1 0x2) := by decide
theorem test_decode_shl : decodeWord 0b1000000100101110 = .ok (.shl 0x1 0x2) := by decide
theorem test_decode_sneReg : decodeWord 0b1001000100100000 = .ok (.sneReg 0x1 0x2) := by decide
theorem test_decode_ldI : decodeWord 0b1010001100000000 = .ok (.ldI 0x300) := by decide
theorem test_decode_jpV0 : decodeWord 0b1011001100000000 = .ok (.jpV0 0x300) := by decide
theorem test_decode_rnd : decodeWord 0b1100001000001111 = .ok (.rnd 0x2 0x0F) := by decide
theorem test_decode_drw : decodeWord 0b1101010110100011 = .ok (.drw 0x5 0xA 0x3) := by decide
theorem test_decode_skp : decodeWord 0b1110010110011110 = .ok (.skp 0x5) := by decide
theorem test_decode_sknp : decodeWord 0b1110010110100001 = .ok (.sknp 0x5) := by decide
theorem test_decode_ldVxDt : decodeWord 0b1111010100000111 = .ok (.ldVxDt 0x5) := by decide
theorem test_decode_ldVxK : decodeWord 0b1111010100001010 = .ok (.ldVxK 0x5) := by decide
theorem test_decode_ldDtVx : decodeWord 0b1111010100010101 = .ok (.ldDtVx 0x5) := by decide
theorem test_decode_ldStVx : decodeWord 0b1111010100011000 = .ok (.ldStVx 0x5) := by decide
theorem test_decode_addI : decodeWord 0b1111010100011110 = .ok (.addI 0x5) := by decide
theorem test_decode_ldF : decodeWord 0b1111010100101001 = .ok (.ldF 0x5) := by decide
theorem test_decode_ldB : decodeWord 0b1111010100110011 = .ok (.ldB 0x5) := by decide
theorem test_decode_storeRegs : decodeWord 0b1111010101010101 = .ok (.storeRegs 0x5) := by decide
theorem test_decode_loadRegs : decodeWord 0b1111010101100101 = .ok (.loadRegs 0x5) := by decide

/-- The table numbers bit 0 as the word's least significant bit: JP 0x234 is the word 0x1234 = 4660. -/
theorem test_decodeTableWord : decodeTableWord 16 4660 = some (.jp 0x234) ∧ decodeTableWord 16 0x0123 = none := by decide
/-- 30_encoding.md R120: an instruction is two bytes; one byte is none. -/
theorem test_decode_truncated : decode [0x12] = .error .truncated := by decide
/-- L1-11. -/
theorem test_fields : fieldX 0xD5A3 = 0x5 ∧ fieldY 0xD5A3 = 0xA ∧ fieldN 0xD5A3 = 0x3 ∧ fieldNN 0xD5A3 = 0xA3 ∧
    fieldNNN 0xD5A3 = 0x5A3 := by decide

/-! ### Reset, memory, fetch -/

/-- 10_state.md R75 and 20_memory.md R89, R90: glyph B begins at 0x37 with E0, and RAM is 0. -/
theorem test_reset : State.reset.pc = 0x200 ∧ State.reset.mem.read 0x37 = 0xE0 ∧ State.reset.mem.read 0x4F = 0x80 ∧
    State.reset.mem.read 0x50 = 0 := by decide
theorem test_reset_inv : State.reset.Inv := by decide
theorem test_reset_clean : State.reset.Clean := by decide
/-- Writing what an unlisted address reads as removes the cell. -/
theorem test_memory_canonical : Memory.write (Memory.write [] 0x300 5) 0x2FF 6 = [(0x2FF, 6), (0x300, 5)] ∧
    Memory.write (Memory.write [] 0x300 5) 0x300 0 = [] := by decide
/-- 60_exceptions.md R305. -/
theorem test_codes : ReportCode.fetchRange.number = 1 ∧ ReportCode.keyRange.number = 8 ∧
    ReportCode.loadTooLarge.number = 10 := by decide

/-- T-F1: the last legal fetch. -/
theorem test_fetch_last : stepsTo (startAt 0xFFE 0x1200) (fun t => t.pc == 0x200) = true := by decide
/-- T-F2. -/
theorem test_fetch_fails : stepsTo { State.reset with pc := 0xFFF }
    (fun t => t.halted && t.pc == 0xFFF && t.log == [⟨.fetchRange, 0xFFF, none, 0xFFF⟩]) = true := by decide
/-- T-F6: an odd fetch. -/
theorem test_fetch_odd : stepsTo (startAt 0x201 0x6012) (fun t => t.reg 0 == 0x12 && t.pc == 0x203) = true := by decide
/-- T-F8, T-F10. -/
theorem test_unknown : reports (start 0x0123) .unknownOpcode 0x0123 0x0123 = true ∧
    reports (start 0x5121) .unknownOpcode 0x5121 0x5121 = true := by decide
/-- T-F15: PC_RESET = 0 fetches the font. -/
theorem test_unknown_font : reports { State.reset with pc := 0 } .unknownOpcode 0xF090 0xF090 = true := by decide
/-- T-F5: a tick while halted. -/
theorem test_tick_halted : (State.tick { State.reset with halted := true, dt := 2 }).dt = 1 ∧ State.reset.tick.st = 0 := by
  decide

/-! ### Control flow (95_test_vectors.md 2.2) -/

/-- T-C1. -/
theorem test_ret : stepsTo { startAt 0x212 0x00EE with sp := 1, stack := State.reset.stack.set 0 0x206 }
    (fun t => t.sp == 0 && t.pc == 0x206 && t.stackEntry 0 == 0x206) = true := by decide
/-- T-C2. -/
theorem test_ret_underflow : reports (startAt 0x300 0x00EE) .stackUnderflow 0x00EE 0 = true := by decide
/-- T-C4. -/
theorem test_jp : stepsTo (start 0x1203) (fun t => t.pc == 0x203) = true := by decide
/-- T-C10. -/
theorem test_call : stepsTo (startAt 0xFFE 0x2300)
    (fun t => t.sp == 1 && t.pc == 0x300 && t.stackEntry 0 == 0x1000) = true := by decide
/-- T-C8. -/
theorem test_call_overflow : reports { startAt 0x300 0x2400 with sp := 16 } .stackOverflow 0x2400 16 = true := by decide
/-- T-C11, T-C13. -/
theorem test_seImm : stepsTo ((startAt 0x208 0x3305).setReg 3 5) (fun t => t.pc == 0x20C) = true ∧
    stepsTo (startAt 0xFFE 0x3000) (fun t => t.pc == 0x1002) = true := by decide
/-- T-C14, T-C15. -/
theorem test_sneImm : stepsTo (start 0x4001) (fun t => t.pc == 0x204) = true ∧
    stepsTo ((start 0x4001).setReg 0 1) (fun t => t.pc == 0x202) = true := by decide
/-- T-C16, T-C17. -/
theorem test_seReg : stepsTo (regs 1 0x7F 2 0x7F (start 0x5120)) (fun t => t.pc == 0x204) = true ∧
    stepsTo (regs 1 1 2 2 (start 0x5120)) (fun t => t.pc == 0x202) = true := by decide
/-- T-C19, T-C20. -/
theorem test_sneReg : stepsTo (regs 1 1 2 2 (start 0x9120)) (fun t => t.pc == 0x204) = true ∧
    stepsTo ((start 0x9550).setReg 5 9) (fun t => t.pc == 0x202) = true := by decide
/-- L1-8: the same word under both settings. -/
theorem test_jpV0 : stepsTo (regs 0 0x10 3 0x20 (start 0xB300)) (fun t => t.pc == 0x310) = true ∧
    stepsTo (quirky false false true (regs 0 0x10 3 0x20 (start 0xB300))) (fun t => t.pc == 0x320) = true := by decide
/-- T-C24, T-C25. -/
theorem test_jpV0_range : reports ((start 0xBFFF).setReg 0 0xFF) .addressRange 0xBFFF 0x10FE = true ∧
    reports (quirky false false true ((start 0xBFFF).setReg 0xF 1)) .addressRange 0xBFFF 0x1000 = true := by decide

/-! ### ALU (95_test_vectors.md 2.3) -/

/-- T-A2. -/
theorem test_ldImm : stepsTo (start 0x6F12) (fun t => t.reg 0xF == 0x12 && t.pc == 0x202) = true := by decide
/-- T-A3, T-A4. -/
theorem test_addImm : stepsTo (regs 0 0xFF 0xF 0x55 (start 0x7002)) (fun t => t.reg 0 == 1 && t.reg 0xF == 0x55) = true ∧
    stepsTo ((start 0x7F01).setReg 0xF 0xFF) (fun t => t.reg 0xF == 0) = true := by decide
/-- T-A6. -/
theorem test_ldReg : stepsTo ((start 0x8010).setReg 1 0x33) (fun t => t.reg 0 == 0x33 && t.reg 1 == 0x33) = true := by decide
/-- T-A7. -/
theorem test_orReg : stepsTo ((regs 0 0xF0 1 0x0F (start 0x8011)).setReg 0xF 0x55)
    (fun t => t.reg 0 == 0xFF && t.reg 0xF == 0x55) = true := by decide
/-- T-A8. -/
theorem test_andReg : stepsTo ((regs 0 0xF3 1 0x3F (start 0x8012)).setReg 0xF 0x55)
    (fun t => t.reg 0 == 0x33 && t.reg 0xF == 0x55) = true := by decide
/-- T-A9, T-A10. -/
theorem test_xorReg : stepsTo (regs 0 0xFF 1 0x0F (start 0x8013)) (fun t => t.reg 0 == 0xF0) = true ∧
    stepsTo ((start 0x8003).setReg 0 0x5A) (fun t => t.reg 0 == 0) = true := by decide
/-- L1-4. -/
theorem test_addReg : stepsTo (regs 0 0xFF 1 0x05 (start 0x8014)) (fun t => t.reg 0 == 0x04 && t.reg 0xF == 1) = true ∧
    stepsTo (regs 0 0x11 1 0x05 (start 0x8014)) (fun t => t.reg 0 == 0x16 && t.reg 0xF == 0) = true := by decide
/-- T-A15, T-A16: VF as destination and as source. -/
theorem test_addReg_vf : stepsTo (regs 0xF 0xF0 1 0x20 (start 0x8F14)) (fun t => t.reg 0xF == 1) = true ∧
    stepsTo (regs 0 0x01 0xF 0xFF (start 0x80F4)) (fun t => t.reg 0 == 0 && t.reg 0xF == 1) = true := by decide
/-- L1-5, T-A17. -/
theorem test_subReg : stepsTo (regs 0 1 1 2 (start 0x8015)) (fun t => t.reg 0 == 0xFF && t.reg 0xF == 0) = true ∧
    stepsTo (regs 0 5 1 5 (start 0x8015)) (fun t => t.reg 0 == 0 && t.reg 0xF == 1) = true := by decide
/-- T-A20. -/
theorem test_subReg_vf : stepsTo (regs 0xF 0x10 1 0x20 (start 0x8F15)) (fun t => t.reg 0xF == 0) = true := by decide
/-- T-A21, T-A22. -/
theorem test_subnReg : stepsTo (regs 0 5 1 3 (start 0x8017)) (fun t => t.reg 0 == 0xFE && t.reg 0xF == 0) = true ∧
    stepsTo (regs 0 5 1 0x16 (start 0x8017)) (fun t => t.reg 0 == 0x11 && t.reg 0xF == 1) = true := by decide
/-- T-A25, T-A26. -/
theorem test_shr : stepsTo (regs 0 4 1 0xFF (start 0x8016)) (fun t => t.reg 0 == 2 && t.reg 0xF == 0) = true ∧
    stepsTo (quirky true false false (regs 0 4 1 0x81 (start 0x8016)))
      (fun t => t.reg 0 == 0x40 && t.reg 0xF == 1 && t.reg 1 == 0x81) = true := by decide
/-- T-A28. -/
theorem test_shr_vf : stepsTo ((start 0x8F06).setReg 0xF 0x81) (fun t => t.reg 0xF == 1) = true := by decide
/-- T-A30, T-A33. -/
theorem test_shl : stepsTo ((start 0x800E).setReg 0 0x81) (fun t => t.reg 0 == 2 && t.reg 0xF == 1) = true ∧
    stepsTo (quirky true false false ((start 0x801E).setReg 1 0x81)) (fun t => t.reg 0 == 2 && t.reg 0xF == 1) = true := by
  decide
/-- T-A32. -/
theorem test_shl_noBit : stepsTo ((start 0x800E).setReg 0 0x40) (fun t => t.reg 0 == 0x80 && t.reg 0xF == 0) = true := by
  decide
/-- T-A36: whatever the draw. -/
theorem test_rnd_masked (s : State) : exec (.rnd 2 0) s = .next (s.setReg 2 0).countDraw := by
  simp [exec, execRnd]

/-! ### Index and memory (95_test_vectors.md 2.4) -/

/-- T-M1. -/
theorem test_ldI : stepsTo (start 0xA300) (fun t => t.i == 0x0300 && t.pc == 0x202) = true := by decide
/-- T-M5, T-M6. -/
theorem test_addI : stepsTo { (start 0xF01E).setReg 0 1 with i := 0x0FFF } (fun t => t.i == 0x1000 && t.reg 0xF == 1) = true ∧
    stepsTo { (start 0xF01E).setReg 0 1 with i := 0x0FFF, fx1eWrap := .mask12 }
      (fun t => t.i == 0 && t.reg 0xF == 1) = true := by decide
/-- T-M4, T-M8. -/
theorem test_addI_flag : stepsTo { (start 0xF01E).setReg 0 1 with i := 0x0FFE } (fun t => t.i == 0x0FFF && t.reg 0xF == 0)
      = true ∧
    stepsTo { (start 0xF01E).setReg 0 2 with i := 0xFFFF } (fun t => t.i == 0x0001 && t.reg 0xF == 1) = true := by decide
/-- T-M11, T-M13. -/
theorem test_ldF : stepsTo ((start 0xF029).setReg 0 0x0F) (fun t => t.i == 0x004B) = true ∧
    stepsTo ((start 0xF029).setReg 0 0xFF) (fun t => t.i == 0x04FB && t.log == []) = true := by decide
/-- T-M14, T-M15 (90_conflicts.md C1). -/
theorem test_ldB : stepsTo { (start 0xF533).setReg 5 0x7E with i := 0x300 }
      (fun t => t.mem.read 0x300 == 1 && t.mem.read 0x301 == 2 && t.mem.read 0x302 == 6 && t.i == 0x300) = true ∧
    stepsTo { (start 0xF033).setReg 0 4 with i := 0x300 }
      (fun t => t.mem.read 0x300 == 0 && t.mem.read 0x301 == 0 && t.mem.read 0x302 == 4) = true := by decide
/-- T-M20, T-M21. -/
theorem test_ldB_reports : reports { (start 0xF033).setReg 0 0x7B with i := 0xFFE } .memoryRange 0xF033 0x1000 = true ∧
    reports { (start 0xF033).setReg 0 0x7B with i := 0x04E } .romWrite 0xF033 0x04E = true := by decide
/-- L1-7, legacy. -/
theorem test_storeRegs : stepsTo
    { quirky false true false (regs 2 0x93 3 0x3A (regs 0 0x15 1 0x17 (start 0xF355))) with i := 0x400 }
    (fun t => t.mem.read 0x400 == 0x15 && t.mem.read 0x401 == 0x17 && t.mem.read 0x402 == 0x93 && t.mem.read 0x403 == 0x3A
      && t.mem.read 0x404 == 0 && t.i == 0x404) = true := by decide
/-- 20_memory.md R86, R87: the range check comes first, and the lowest bad address is reported. -/
theorem test_storeRegs_reports : reports { start 0xF155 with i := 0xFFF } .memoryRange 0xF155 0x1000 = true ∧
    reports { start 0xF155 with i := 0x04F } .romWrite 0xF155 0x04F = true := by decide
/-- 42_index_memory.md R253 from the font (20_memory.md R88), revised. -/
theorem test_loadRegs : stepsTo { (start 0xF165).setReg 2 7 with i := 0 }
    (fun t => t.reg 0 == 0xF0 && t.reg 1 == 0x90 && t.reg 2 == 7 && t.i == 0) = true := by decide
/-- 42_index_memory.md R253 at the top of memory, legacy. -/
theorem test_loadRegs_reports : reports { quirky false true false (start 0xF165) with i := 0xFFF } .memoryRange 0xF165 0x1000
    = true := by decide

/-! ### Display -/

/-- L1-2. -/
theorem test_cls : stepsTo { start 0x00E0 with display := Vector.replicate 64 (Vector.replicate 32 true) }
    (fun t => t.display == State.reset.display && t.pc == 0x202) = true := by decide
/-- P4's step 4: the sprite byte at 0xFFF of this state draws the pixels (62, 30) and (63, 30) and clips the rest. -/
theorem test_drw_clips : stepsTo
    { regs 0 0x7E 1 0x3E (start 0xD011) with i := 0x300, mem := [(0x200, 0xD0), (0x201, 0x11), (0x300, 0xFF)] }
    (fun t => Display.get t.display 62 30 && Display.get t.display 63 30 && !Display.get t.display 0 30
      && !Display.get t.display 61 30 && !Display.get t.display 62 31 && t.reg 0xF == 0) = true := by decide
/-- 43_display.md R264, R266: bit 7 is the left column; an on pixel turns off and sets VF. Glyph 1's first byte is 0x20. -/
theorem test_drw_collides : stepsTo { start 0xD001 with i := 5, display := Display.flip Display.blank 2 0 }
    (fun t => t.display == Display.blank && t.reg 0xF == 1) = true := by decide

/-! ### Keypad and timers -/

/-- The keypad with only key `k` pressed. -/
def onlyKey (k : Fin 16) (s : State) : State := { s with keys := (Vector.replicate 16 false).set k.val true }

/-- 44_keypad_timers.md R280, R281. -/
theorem test_skp : stepsTo (onlyKey 7 ((start 0xE59E).setReg 5 7)) (fun t => t.pc == 0x204) = true ∧
    reports ((start 0xE59E).setReg 5 0x10) .keyRange 0xE59E 0x10 = true := by decide
/-- 44_keypad_timers.md R283, R281. -/
theorem test_sknp : stepsTo (onlyKey 7 ((start 0xE5A1).setReg 5 7)) (fun t => t.pc == 0x202) = true ∧
    reports ((start 0xE5A1).setReg 5 0xFF) .keyRange 0xE5A1 0xFF = true := by decide
/-- L1-10: waiting, then key 7. -/
theorem test_ldVxK : stepsTo (start 0xF00A) (fun t => t == start 0xF00A) = true ∧
    stepsTo (onlyKey 7 (start 0xF00A)) (fun t => t.reg 0 == 7 && t.pc == 0x202) = true := by decide
/-- 44_keypad_timers.md R290. -/
theorem test_ldVxDt : stepsTo { start 0xF207 with dt := 3, st := 9 } (fun t => t.reg 2 == 3 && t.dt == 3) = true := by decide
/-- 44_keypad_timers.md R292. -/
theorem test_ldDtVx : stepsTo ((start 0xF115).setReg 1 3) (fun t => t.dt == 3 && t.st == 0) = true := by decide
/-- 44_keypad_timers.md R294. -/
theorem test_ldStVx : stepsTo ((start 0xF118).setReg 1 3) (fun t => t.st == 3 && t.dt == 0 && t.soundOut) = true := by decide

/-! ### The host's side -/

/-- 20_memory.md R110. -/
theorem test_load : (State.reset.load (some [0x12, 0x34])).mem = [(0x200, 0x12), (0x201, 0x34)] := by decide
/-- 20_memory.md R112, 60_exceptions.md R311. -/
theorem test_load_empty : (State.reset.load (some [])).log = [⟨.loadEmpty, 0x200, none, 0⟩] ∧
    reportOut State.reset (State.reset.load none) = [⟨.loadEmpty, 0x200, none, 0⟩] := by decide
/-- `withFetchWord` places the word of the table's numbering where the next step fetches. -/
theorem test_withFetchWord : stepsTo (State.reset.withFetchWord 16 0x1234) (fun t => t.pc == 0x234) = true := by decide

/-! ### Witnesses: a concrete state and operands for each clause of the statements that have hypotheses -/

/-- The default start state with SP = n. -/
def depth (n : Byte) (s : State) : State := { s with sp := n }

/-- The default start state with I = a. -/
def indexAt (a : Word) : State := { State.reset with i := a }

/-- EncodeOfDecodedWordIsTheWord. -/
theorem witness_decodedWord : decodeWord 0x8014 = .ok (.addReg 0 1) := by decide
/-- DecodeFollowsTheOpcodeMap: each clause. -/
theorem witness_opcodeMap : ⟨0xFFFF, 0x00EE⟩ ∈ opcodeRows ∧ OpcodeRow.fits ⟨0xFFFF, 0x00EE⟩ 0x00EE = true ∧
    wordWellFormed 0x00EE = true ∧ wordWellFormed 0x00EF = false := by decide
/-- FetchIsBigEndian, at the last legal fetch address and at an odd one. -/
theorem witness_fetch : (startAt 0xFFE 0x1200).pc.toNat ≤ 0x0FFE ∧ (startAt 0x201 0x1200).pc.toNat ≤ 0x0FFE := by decide
/-- StepRunsTheDecodedInstruction, at the last legal fetch address. -/
theorem witness_stepRuns : let s := startAt 0xFFE 0x1200
    s.halted = false ∧ s.pc.toNat < 0x0FFF ∧
      decode [s.mem.read s.pc.toNat, s.mem.read (s.pc.toNat + 1)] = .ok (.jp 0x200, []) := by decide
/-- StepIsFetchDecodeExecute: the halted and the fetch failure clause, at the first failing address. -/
theorem witness_stepStops : State.halted { State.reset with halted := true } = true ∧
    (let s : State := { State.reset with pc := 0xFFF }; s.halted = false ∧ 0x0FFF ≤ s.pc.toNat) := by decide
/-- StepIsFetchDecodeExecute: the instruction and the UNKNOWN clause, at the last legal fetch address. -/
theorem witness_stepDecodes : (startAt 0xFFE 0x1200).halted = false ∧ (startAt 0xFFE 0x1200).pc.toNat < 0x0FFF ∧
    decodeWord (startAt 0xFFE 0x1200).fetchWord = .ok (.jp 0x200) ∧
    (startAt 0xFFE 0x00EF).halted = false ∧ (startAt 0xFFE 0x00EF).pc.toNat < 0x0FFF ∧
    decodeWord (startAt 0xFFE 0x00EF).fetchWord = .error (.unknown 0x00EF) := by decide
/-- UnknownWordsAreReportedNoOps. -/
theorem witness_unknownWord : (start 0x5121).halted = false ∧ (start 0x5121).pc.toNat < 0x0FFF ∧
    wordWellFormed (start 0x5121).fetchWord = false := by decide
/-- ReturnPopsTheStackOrReports: SP = 0, and SP = 1 and 16. -/
theorem witness_return : State.reset.sp.toNat = 0 ∧
    (0 < (depth 1 State.reset).sp.toNat ∧ (depth 1 State.reset).sp.toNat ≤ 16) ∧
    (0 < (depth 16 State.reset).sp.toNat ∧ (depth 16 State.reset).sp.toNat ≤ 16) := by decide
/-- CallPushesTheReturnAddressOrReports: SP = 16, and SP = 0 and 15. -/
theorem witness_call : (depth 16 State.reset).sp.toNat = 16 ∧ State.reset.sp.toNat < 16 ∧
    (depth 15 State.reset).sp.toNat < 16 := by decide
/-- CallAndReturnStopAboveDepth16: SP = 17. -/
theorem witness_aboveDepth : 16 < (depth 17 State.reset).sp.toNat := by decide
/-- ReturnAfterCallRestoresPc, at SP = 15, with a register changed between. -/
theorem witness_returnAfterCall : ∃ t u : State, (depth 15 State.reset).sp.toNat < 16 ∧
    exec (.call 0x300) (depth 15 State.reset) = .next t ∧ u.sp = t.sp ∧ u.stack = t.stack ∧ u ≠ t :=
  ⟨_, State.setReg _ 0 1, by decide, rfl, rfl, rfl, by decide⟩
/-- OffsetJumpAddsTheSelectedRegister, legacy: register 0; revised: register F; the targets 0xFFF and 0x1000. -/
theorem witness_offsetJump :
    (let s := State.reset.setReg 0 0xFF
     (0 : Nibble).toNat = (if s.quirks.jumpVx then (0xF00 : Addr12).toNat / 256 else 0) ∧
       0xFFF = (0xF00 : Addr12).toNat + (s.reg 0).toNat ∧ 0xFFF < 0x1000) ∧
    (let s := quirky false false true (State.reset.setReg 0xF 1)
     (0xF : Nibble).toNat = (if s.quirks.jumpVx then (0xFFF : Addr12).toNat / 256 else 0) ∧
       0x1000 = (0xFFF : Addr12).toNat + (s.reg 0xF).toNat ∧ 0x1000 ≤ 0x1000) := by decide
/-- ShiftRightByQuirk and ShiftLeftByQuirk, under both settings. -/
theorem witness_shift : (2 : Nibble) = (if (quirky true false false State.reset).quirks.shiftVy then 2 else 1) ∧
    (1 : Nibble) = (if State.reset.quirks.shiftVy then 2 else 1) := by decide
/-- DecimalDigitsAreStoredOrReported: I = 0xFFE; 0x04F; 0x050 and 0xFFD. -/
theorem witness_decimal : 0x1000 ≤ (indexAt 0xFFE).i.toNat + 2 ∧ (indexAt 0x04F).i.toNat ≤ 0x04F ∧
    (0x050 ≤ (indexAt 0x050).i.toNat ∧ (indexAt 0x050).i.toNat + 2 < 0x1000 ∧ (indexAt 0x050).MemoryOk) ∧
    (0x050 ≤ (indexAt 0xFFD).i.toNat ∧ (indexAt 0xFFD).i.toNat + 2 < 0x1000 ∧ (indexAt 0xFFD).MemoryOk) := by decide
/-- RegisterBlockIsStoredOrReported: I = 0xFFF with x = 1; 0x04F; 0x050 with x = F and 0xFFF with x = 0. -/
theorem witness_blockStore : 0x1000 ≤ (indexAt 0xFFF).i.toNat + (1 : Nibble).toNat ∧ (indexAt 0x04F).i.toNat ≤ 0x04F ∧
    (0x050 ≤ (indexAt 0x050).i.toNat ∧ (indexAt 0x050).i.toNat + (0xF : Nibble).toNat < 0x1000 ∧
      (indexAt 0x050).MemoryOk) ∧
    (0x050 ≤ (indexAt 0xFFF).i.toNat ∧ (indexAt 0xFFF).i.toNat + (0 : Nibble).toNat < 0x1000 ∧
      (indexAt 0xFFF).MemoryOk) := by decide
/-- RegisterBlockIsLoadedOrReported: I = 0xFF1 with x = F; 0xFF0 with x = F. -/
theorem witness_blockLoad : 0x1000 ≤ (indexAt 0xFF1).i.toNat + (0xF : Nibble).toNat ∧
    (indexAt 0xFF0).i.toNat + (0xF : Nibble).toNat < 0x1000 := by decide
/-- StoreThenLoadRestoresRegisters, with the registers cleared and, legacy, I moved back between. -/
theorem witness_storeThenLoad : let s := quirky false true false ((indexAt 0x400).setReg 1 0x17)
    ∃ t u : State, s.MemoryOk ∧ 0x050 ≤ s.i.toNat ∧ s.i.toNat + (3 : Nibble).toNat < 0x1000 ∧
      exec (.storeRegs 3) s = .next t ∧ u.mem = t.mem ∧ u.i = s.i ∧ u.i ≠ t.i ∧ u.reg 1 ≠ s.reg 1 := by
  exact ⟨_, { indexAt 0x400 with mem := _ }, by decide, by decide, by decide, rfl, rfl, rfl, by decide, by decide⟩
/-- DrawFlipsTheSpritePixels: I + n = 0x1001, 0x1000, and n = 0 at I = 0xFFFF. -/
theorem witness_draw : (0 < (1 : Nibble).toNat ∧ 0x1000 < (indexAt 0x1000).i.toNat + (1 : Nibble).toNat) ∧
    (indexAt 0xFFF).i.toNat + (1 : Nibble).toNat ≤ 0x1000 ∧ (0 : Nibble).toNat = 0 := by decide
/-- DrawFlipsTheSpritePixels: a pixel the sprite covers, at the corner (63, 31), and one it does not (the font's byte 5). -/
theorem witness_drawCovers : let s := regs 0 61 1 31 (indexAt 5)
    s.spriteCovers 0 1 1 63 31 ∧ ¬ s.spriteCovers 0 1 1 62 31 := by
  unfold State.spriteCovers; decide
/-- DrawFlipsTheSpritePixels: a draw that collides, and one that does not. -/
theorem witness_drawCollides :
    State.spriteCollides { regs 0 61 1 31 (indexAt 5) with display := Display.flip Display.blank 63 31 } 0 1 1 ∧
    ¬ (regs 0 61 1 31 (indexAt 5)).spriteCollides 0 1 1 := by
  refine ⟨⟨63, by decide, 31, by decide, by unfold State.spriteCovers; decide, by decide⟩, ?_⟩
  rintro ⟨c, -, r, -, -, h⟩
  have off : Display.get (regs 0 61 1 31 (indexAt 5)).display c r = false := by
    show Display.get Display.blank c r = false
    unfold Display.get Display.blank; split <;> simp
  rw [off] at h; cases h
/-- DrawingTwiceRestoresTheDisplay, with a pixel that was off before the first draw. -/
theorem witness_drawTwice : let s := regs 0 61 1 31 (indexAt 5)
    ∃ t u : State, s.i.toNat + (1 : Nibble).toNat ≤ 0x1000 ∧ exec (.drw 0 1 1) s = .next t ∧
      u.mem = s.mem ∧ u.i = s.i ∧ u.display = t.display ∧ u.reg 0 = s.reg 0 ∧ u.reg 1 = s.reg 1 ∧
      ∃ c < 64, ∃ r < 32, s.spriteCovers 0 1 1 c r ∧ Display.get s.display c r = false :=
  ⟨_, (regs 0 61 1 31 (indexAt 5)).drawSprite 0 1 1, by decide, rfl, rfl, rfl, by decide, by decide, by decide,
    63, by decide, 31, by decide, by unfold State.spriteCovers; decide, by decide⟩
/-- KeySkips: the key indices 16 and 15. -/
theorem witness_keyIndex : 16 ≤ ((State.reset.setReg 5 16).reg 5).toNat ∧ ((State.reset.setReg 5 15).reg 5).toNat < 16 := by
  decide
/-- KeyWaitRewindsOrStoresAKey: no key, and keys 0 and 15. -/
theorem witness_keyWait : (∀ k, (h : k < 16) → State.reset.keys[k] = false) ∧
    (∃ k, ∃ h : k < 16, (onlyKey 0 State.reset).keys[k] = true) ∧
    (∃ k, ∃ h : k < 16, (onlyKey 15 State.reset).keys[k] = true) :=
  ⟨by decide, ⟨0, by decide, by decide⟩, ⟨15, by decide, by decide⟩⟩
/-- LoadCopiesTheImageOrReports: images of 1 and 3584 bytes; of 3585; of none. -/
theorem witness_load : imageWellFormed [0x12] = true ∧ imageWellFormed (List.replicate 3584 0) = true ∧
    State.reset.MemoryOk ∧ 0xE00 < (List.replicate 3585 (0 : Byte)).length ∧ ([] : List Byte) = [] :=
  ⟨by decide, test_wellFormed_image_largest, by decide, by rw [List.length_replicate]; decide, rfl⟩
/-- ConstructionZeroesEverythingButFontAndPc: both ends of the font, and of the bytes above it, of V, of S, D and K. -/
theorem witness_construction : 79 < 80 ∧ 0x050 ≤ 0x050 ∧ 0xFFF < 0x1000 ∧ 15 < 16 ∧ 63 < 64 ∧ 31 < 32 := by decide
/-- TransactionsKeepMemoryCanonical, FontRomIsImmutable, HaltedIsFinalAndOnlyFetchHalts, LogGrowsByAtMostOneReport: each
transaction answers a next state; a step halts. -/
theorem witness_transactions : State.reset.MemoryOk ∧ (∃ t, transact .step State.reset = .next t) ∧
    (∃ t, transact .tick State.reset = .next t) ∧
    (∃ t, transact (.keys (Vector.replicate 16 true)) State.reset = .next t) ∧
    (∃ t, transact (.load (some [0x12])) State.reset = .next t) ∧
    (∃ t, transact .step { State.reset with pc := 0xFFF } = .next t ∧ t.halted = true) ∧
    (∃ t, transact .step { State.reset with halted := true } = .next t) :=
  ⟨by decide, ⟨_, rfl⟩, ⟨_, rfl⟩, ⟨_, rfl⟩, ⟨_, rfl⟩, ⟨_, rfl, by decide⟩, ⟨_, rfl⟩⟩
/-- StackPointerStaysWithinDepth: an instruction that changes SP, to 16. -/
theorem witness_stackPointer : ∃ t, exec (.call 0x300) (depth 15 State.reset) = .next t ∧
    (depth 15 State.reset).StackPointerOk ∧ t.sp ≠ (depth 15 State.reset).sp ∧ t.sp = 16 :=
  ⟨_, rfl, by decide, by decide, by decide⟩
/-- StepKeepsPcBounded, at the bound: a taken skip at 0xFFE. -/
theorem witness_pcBounded : (startAt 0xFFE 0x3000).PcBounded ∧ ∃ t, step (startAt 0xFFE 0x3000) = .next t ∧ t.pc = 0x1002 :=
  ⟨by decide, _, rfl, by decide⟩
/-- RunsKeepTheInvariantAndNeverStop and StepAlwaysAnswersANextState, with SP = 16. -/
theorem witness_inv : (depth 16 State.reset).Inv ∧ (depth 16 State.reset).StackPointerOk := by decide
/-- ConstructionMeetsTheInvariant: PC_RESET = 0x1002. -/
theorem witness_pcReset : (0x1002 : Word).toNat ≤ 0x1002 := by decide
/-- ReportsArePrecise: a report by an instruction, and FETCH_RANGE. -/
theorem witness_report :
    (∃ t, step (start 0x00EE) = .next t ∧ t.log = (start 0x00EE).log ++ [⟨.stackUnderflow, 0x200, some 0x00EE, 0⟩]) ∧
    (∃ t, step { State.reset with pc := 0xFFF } = .next t ∧ t.log = [] ++ [⟨.fetchRange, 0xFFF, none, 0xFFF⟩]) :=
  ⟨⟨_, rfl, by decide⟩, ⟨_, rfl, by decide⟩⟩
/-- OnlyDisplayInstructionsChangeTheDisplay. -/
theorem witness_displayChange : ∃ t, exec (.drw 0 0 1) (indexAt 5) = .next t ∧ t.display ≠ (indexAt 5).display :=
  ⟨_, rfl, by decide⟩
/-- OnlyBlockStoresChangeMemory: both instructions. -/
theorem witness_memoryChange :
    (∃ t, exec (.ldB 0) ((indexAt 0x300).setReg 0 100) = .next t ∧ t.mem ≠ (indexAt 0x300).mem) ∧
    (∃ t, exec (.storeRegs 0) ((indexAt 0x300).setReg 0 100) = .next t ∧ t.mem ≠ (indexAt 0x300).mem) :=
  ⟨⟨_, rfl, by decide⟩, ⟨_, rfl, by decide⟩⟩
/-- OnlyNamedRegistersAndTheFlagChange: the destination, and VF as a flag. -/
theorem witness_registerChange : let s := regs 0 0xFF 1 2 State.reset
    ∃ t, exec (.addReg 0 1) s = .next t ∧ t.reg 0 ≠ s.reg 0 ∧ t.reg 0xF ≠ s.reg 0xF :=
  ⟨_, rfl, by decide, by decide⟩
/-- StepKeepsKeysAndSwitches and ProgramsCannotReadTheLog. -/
theorem witness_step : ∃ t, step (start 0x6A7E) = .next t := ⟨_, rfl⟩
/-- OnlyTimerInstructionsChangeTimers: DT and ST. -/
theorem witness_timerChange : let s := State.reset.setReg 1 3
    (∃ t, exec (.ldDtVx 1) s = .next t ∧ t.dt ≠ s.dt) ∧ ∃ t, exec (.ldStVx 1) s = .next t ∧ t.st ≠ s.st :=
  ⟨⟨_, rfl, by decide⟩, ⟨_, rfl, by decide⟩⟩
/-- StaleStackEntriesCannotBeObserved: SP = 1 and a RET, with another entry 1. -/
theorem witness_staleStack : let s := depth 1 (start 0x00EE)
    let st : Vector Word 16 := s.stack.set 1 0x333
    s.StackPointerOk ∧ (∀ k < s.sp.toNat, (st[k]?).getD 0 = s.stackEntry k) ∧ st ≠ s.stack ∧ ∃ t, step s = .next t :=
  ⟨by decide, by decide, by decide, _, rfl⟩

end Sys2Proof.Tests
end

namespace Sys2Proof.Machine

/-! ### What construction leaves in each field (10_state.md R75)

The fields that do not depend on the parameters are those of the reset state. -/

@[simp] theorem State.construct_mem (p : Construction) :
    (State.construct p).mem = Memory.writeBytes [] 0 p.font.toList := rfl
@[simp] theorem State.construct_v (p : Construction) : (State.construct p).v = Vector.replicate 16 0 := rfl
@[simp] theorem State.construct_i (p : Construction) : (State.construct p).i = 0 := rfl
@[simp] theorem State.construct_pc (p : Construction) : (State.construct p).pc = p.pcReset := rfl
@[simp] theorem State.construct_sp (p : Construction) : (State.construct p).sp = 0 := rfl
@[simp] theorem State.construct_stack (p : Construction) : (State.construct p).stack = Vector.replicate 16 0 := rfl
@[simp] theorem State.construct_dt (p : Construction) : (State.construct p).dt = 0 := rfl
@[simp] theorem State.construct_st (p : Construction) : (State.construct p).st = 0 := rfl
@[simp] theorem State.construct_display (p : Construction) : (State.construct p).display = Display.blank := rfl
@[simp] theorem State.construct_keys (p : Construction) :
    (State.construct p).keys = Vector.replicate 16 false := rfl
@[simp] theorem State.construct_quirks (p : Construction) : (State.construct p).quirks = p.quirks := rfl
@[simp] theorem State.construct_halted (p : Construction) : (State.construct p).halted = false := rfl
@[simp] theorem State.construct_log (p : Construction) : (State.construct p).log = [] := rfl
@[simp] theorem State.construct_fx1eWrap (p : Construction) : (State.construct p).fx1eWrap = p.fx1eWrap := rfl
@[simp] theorem State.construct_draws (p : Construction) : (State.construct p).draws = 0 := rfl

/-! ### Reading memory, registers and stack entries after construction -/

/-- The memory with no cell listed, which construction writes the font into, is canonical. -/
theorem Memory.wf_nil : Memory.wf [] := ⟨.nil, by simp⟩

/-- The font is loaded from address 0 on, byte for byte (20_memory.md R89). -/
theorem State.read_construct_font (p : Construction) {a : Nat} (h : a < 80) :
    (State.construct p).mem.read a = p.font[a] := by
  have hread := Memory.read_writeBytes_inside Memory.wf_nil (a := 0) (k := a) p.font.toList (by simpa using h) (by simp)
  simpa using hread

/-- Above the font nothing is listed, and an unlisted byte there is 0. -/
theorem State.read_construct_above_font (p : Construction) {a : Nat} (h : fontSize ≤ a) :
    (State.construct p).mem.read a = 0 := by
  have hout := Memory.read_writeBytes_outside [] (a := 0) (b := a) p.font.toList (.inr (by simpa using h))
  exact hout.trans (Memory.initial_above_font h)

@[simp] theorem State.reg_construct (p : Construction) (r : Nibble) : (State.construct p).reg r = 0 := by
  simp [State.reg]

/-- An entry beyond the depth reads as 0 too, so no bound on the index is needed. -/
@[simp] theorem State.stackEntry_construct (p : Construction) (k : Nat) : (State.construct p).stackEntry k = 0 := by
  rw [State.stackEntry, State.construct_stack, Vector.getElem?_replicate]
  split <;> rfl

/-- Settles O42: the font block and the bytes above it are read by the laws of memory; every other field is a
parameter or the zero of its kind. -/
theorem constructionZeroesEverythingButFontAndPc : Obligations.ConstructionZeroesEverythingButFontAndPc := by
  intro p s
  have hfont : ∀ a, (h : a < 80) → s.mem.read a = p.font[a] := fun _ h => State.read_construct_font p h
  have habove : ∀ a, 0x050 ≤ a → a < 0x1000 → s.mem.read a = 0 := fun _ h _ => State.read_construct_above_font p h
  have hoff : ∀ c < 64, ∀ r < 32, Display.get s.display c r = false := fun c _ r _ => Display.get_blank c r
  have hreleased : ∀ k, (h : k < 16) → s.keys[k] = false := by simp [s]
  exact ⟨hfont, habove, State.reg_construct p, State.construct_i p, State.construct_pc p, State.construct_sp p,
    fun k _ => State.stackEntry_construct p k, State.construct_dt p, State.construct_st p, hoff, hreleased,
    State.construct_quirks p, State.construct_halted p, State.construct_log p⟩

end Sys2Proof.Machine

namespace Sys2Proof

/-! ### A fetched word as a number (20_memory.md R92, R95) -/

theorem toNat_wordOfBytes (high low : Byte) : (wordOfBytes high low).toNat = high.toNat * 2 ^ 8 + low.toNat := by
  rw [wordOfBytes, BitVec.toNat_append, ← Nat.shiftLeft_add_eq_or_of_lt low.isLt, Nat.shiftLeft_eq]

/-- Settles O5: both bytes of the word are read at exact addresses, so the bound on PC is not needed. -/
theorem fetchIsBigEndian : Obligations.FetchIsBigEndian :=
  fun s _ => toNat_wordOfBytes (s.mem.read s.pc.toNat) (s.mem.read (s.pc.toNat + 1))

/-! ### The images a load copies (20_memory.md R110-R112) -/

theorem imageWellFormed_iff {image : List Byte} :
    imageWellFormed image = true ↔ 1 ≤ image.length ∧ image.length ≤ maxImage := by
  simp only [imageWellFormed, Bool.and_eq_true, decide_eq_true_eq]

end Sys2Proof

namespace Sys2Proof.Machine

/-! ### The outcomes of a program load (20_memory.md R110-R112) -/

@[simp] theorem State.load_none (s : State) : s.load none = s.raiseLoad .loadEmpty 0 := rfl
@[simp] theorem State.load_nil (s : State) : s.load (some []) = s.raiseLoad .loadEmpty 0 := rfl

theorem State.load_of_maxImage_lt (s : State) {image : List Byte} (h : maxImage < image.length) :
    s.load (some image) = s.raiseLoad .loadTooLarge image.length := by
  cases image with
  | nil => exact absurd h (Nat.not_lt_zero _)
  | cons b bs => exact if_pos h

theorem State.load_of_wellFormed (s : State) {image : List Byte} (h : imageWellFormed image = true) :
    s.load (some image) = { s with mem := s.mem.writeBytes loadBase image } := by
  obtain ⟨hpos, hmax⟩ := imageWellFormed_iff.mp h
  cases image with
  | nil => exact absurd hpos (Nat.not_succ_le_zero 0)
  | cons b bs => exact if_neg (Nat.not_lt.mpr hmax)

/-- Settles O41: an image that fits is one block of writes, which ends at or below memory size; every other load is one
report. -/
theorem loadCopiesTheImageOrReports : Obligations.LoadCopiesTheImageOrReports := by
  intro s image
  refine ⟨fun hwf hmem => ?copied, fun hlong => ?tooLarge, fun hempty => ?empty, congrArg Host.Outcome.next s.load_none⟩
  case copied =>
    obtain ⟨-, hmax⟩ := imageWellFormed_iff.mp hwf
    have hfits : loadBase + image.length ≤ memorySize := Nat.add_le_add_left hmax loadBase
    have hinside : ∀ k, (h : k < image.length) → (s.mem.writeBytes loadBase image).read (loadBase + k) = image[k] :=
      fun _ h => Memory.read_writeBytes_inside hmem image h hfits
    have houtside : ∀ a, (a < loadBase ∨ loadBase + image.length ≤ a) →
        (s.mem.writeBytes loadBase image).read a = s.mem.read a :=
      fun _ h => Memory.read_writeBytes_outside s.mem image h
    exact ⟨_, congrArg Host.Outcome.next (s.load_of_wellFormed hwf), rfl, hinside, houtside⟩
  case tooLarge => exact congrArg Host.Outcome.next (s.load_of_maxImage_lt hlong)
  case empty => subst hempty; exact congrArg Host.Outcome.next s.load_nil

end Sys2Proof.Machine

namespace Sys2Proof

open Laws.EncodedRow (mask_nnn mask_xys mask_xss)

/-! ### What a row's mask keeps of a word (30_encoding.md R121, R122) -/

theorem and_familyMask (w : Word) : w &&& 0xF000#16 = fieldFamily w ++ 0#12 := by
  conv_lhs => rw [← word_eq_nnn w]
  exact mask_nnn ..

theorem and_familyNMask (w : Word) : w &&& 0xF00F#16 = fieldFamily w ++ 0#4 ++ 0#4 ++ fieldN w := by
  conv_lhs => rw [← word_eq_xyn w]
  exact mask_xys ..

theorem and_familyNNMask (w : Word) : w &&& 0xF0FF#16 = fieldFamily w ++ 0#4 ++ fieldNN w := by
  conv_lhs => rw [← word_eq_xnn w]
  exact mask_xss ..

/-! ### Fitting a row, in terms of the fields

The pattern's fields are written as extracts, which `simp` evaluates on the patterns of the opcode map. -/

theorem fits_word_iff {w p : Word} : OpcodeRow.fits ⟨0xFFFF#16, p⟩ w = true ↔
    fieldFamily w = p.extractLsb' 12 4 ∧ w = p := by
  rw [OpcodeRow.fits, beq_iff_eq, show (0xFFFF#16 : Word) = BitVec.allOnes 16 from rfl, BitVec.and_allOnes]
  exact ⟨fun h => ⟨h ▸ rfl, h⟩, And.right⟩

theorem fits_family_iff {w p : Word} : OpcodeRow.fits ⟨0xF000#16, p⟩ w = true ↔
    fieldFamily w = p.extractLsb' 12 4 ∧ p.extractLsb' 0 12 = 0#12 := by
  rw [OpcodeRow.fits, beq_iff_eq, and_familyMask]
  constructor
  · rintro rfl
    exact ⟨(fieldFamily_nnn ..).symm, fieldNNN_nnn ..⟩
  · rintro ⟨hf, hnnn⟩
    rw [hf, ← hnnn]
    exact word_eq_nnn p

theorem fits_familyN_iff {w p : Word} : OpcodeRow.fits ⟨0xF00F#16, p⟩ w = true ↔
    fieldFamily w = p.extractLsb' 12 4 ∧ fieldN w = p.extractLsb' 0 4 ∧
      p.extractLsb' 8 4 = 0#4 ∧ p.extractLsb' 4 4 = 0#4 := by
  rw [OpcodeRow.fits, beq_iff_eq, and_familyNMask]
  constructor
  · rintro rfl
    exact ⟨(fieldFamily_xyn ..).symm, (fieldN_xyn ..).symm, fieldX_xyn .., fieldY_xyn ..⟩
  · rintro ⟨hf, hn, hx, hy⟩
    calc (fieldFamily w ++ 0#4 ++ 0#4 ++ fieldN w : Word)
      _ = fieldFamily p ++ fieldX p ++ fieldY p ++ fieldN p := by
        rw [hf, hn, show fieldX p = 0#4 from hx, show fieldY p = 0#4 from hy]; rfl
      _ = p := word_eq_xyn p

theorem fits_familyNN_iff {w p : Word} : OpcodeRow.fits ⟨0xF0FF#16, p⟩ w = true ↔
    fieldFamily w = p.extractLsb' 12 4 ∧ fieldNN w = p.extractLsb' 0 8 ∧ p.extractLsb' 8 4 = 0#4 := by
  rw [OpcodeRow.fits, beq_iff_eq, and_familyNNMask]
  constructor
  · rintro rfl
    exact ⟨(fieldFamily_xnn ..).symm, (fieldNN_xnn ..).symm, fieldX_xnn ..⟩
  · rintro ⟨hf, hnn, hx⟩
    rw [hf, hnn, ← hx]
    exact word_eq_xnn p

/-! ### The rows of the opcode map (30_encoding.md R133, R135) -/

theorem Instr.row_mem_opcodeRows (i : Instr) : i.row ∈ opcodeRows := by
  cases i <;> exact List.mem_of_elem_eq_true rfl

/-- A word that fits two rows makes their patterns agree on the bits that both masks keep, and no two rows of the map
do. -/
theorem eq_of_fits_of_mem {w : Word} {r q : OpcodeRow} (hr : r ∈ opcodeRows) (hq : q ∈ opcodeRows)
    (hrw : r.fits w = true) (hqw : q.fits w = true) : r = q := by
  have hrows : ∀ r ∈ opcodeRows, ∀ q ∈ opcodeRows, r.pattern &&& q.mask = q.pattern &&& r.mask → r = q := by
    decide
  refine hrows r hr q hq ?_
  calc r.pattern &&& q.mask
    _ = w &&& (r.mask &&& q.mask) := by rw [← beq_iff_eq.mp hrw, BitVec.and_assoc]
    _ = w &&& (q.mask &&& r.mask) := by rw [BitVec.and_comm r.mask]
    _ = q.pattern &&& r.mask := by rw [← beq_iff_eq.mp hqw, BitVec.and_assoc]

/-- The opcode map in terms of a word's fields, its four lists of rows in order (30_encoding.md R136-R140). -/
theorem wordWellFormed_iff (w : Word) : wordWellFormed w = true ↔
    (((fieldFamily w = 0x0 ∧ w ∈ ([0x00E0, 0x00EE] : List Word) ∨
      fieldFamily w ∈ ([0x1, 0x2, 0x3, 0x4] : List Nibble) ∨
      fieldFamily w = 0x5 ∧ fieldN w = 0x0 ∨
      fieldFamily w ∈ ([0x6, 0x7] : List Nibble)) ∨
    fieldFamily w = 0x8 ∧
      fieldN w ∈ ([0x0, 0x1, 0x2, 0x3, 0x4, 0x5, 0x6, 0x7, 0xE] : List Nibble)) ∨
    (fieldFamily w = 0x9 ∧ fieldN w = 0x0 ∨
      fieldFamily w ∈ ([0xA, 0xB, 0xC, 0xD] : List Nibble) ∨
      fieldFamily w = 0xE ∧ fieldNN w ∈ ([0x9E, 0xA1] : List Byte))) ∨
    fieldFamily w = 0xF ∧
      fieldNN w ∈ ([0x07, 0x0A, 0x15, 0x18, 0x1E, 0x29, 0x33, 0x55, 0x65] : List Byte) := by
  simp only [wordWellFormed, opcodeRows, List.any_append, Bool.or_eq_true]
  refine or_congr (or_congr (or_congr ?low ?alu) ?high) ?misc
  case low => simp [rowsLow, fits_word_iff, fits_family_iff, fits_familyN_iff, or_assoc, and_or_left]
  case alu => simp [rowsAlu, fits_familyN_iff, and_or_left]
  case high => simp [rowsHigh, fits_family_iff, fits_familyN_iff, fits_familyNN_iff, or_assoc, and_or_left]
  case misc => simp [rowsMisc, fits_familyNN_iff, and_or_left]

/-! ### The decoder follows the opcode map -/

/-- The answer to `w` agrees with the opcode map: an instruction of a row that fits, or a rejection when none does
(30_encoding.md R133). -/
def FollowsOpcodeMap (w : Word) : Except DecodeError Instr → Prop
  | .ok i => i.row.fits w = true
  | .error _ => wordWellFormed w = false

theorem followsOpcodeMap_error {w : Word} {e : DecodeError} :
    FollowsOpcodeMap w (.error e) ↔ ¬ wordWellFormed w = true := by
  rw [FollowsOpcodeMap, Bool.not_eq_true]

theorem decodeFamily0_followsOpcodeMap {w : Word} (hf : fieldFamily w = 0x0#4) :
    FollowsOpcodeMap w (decodeFamily0 w) := by
  unfold decodeFamily0
  iterate 2 refine iteInduction (fun hw => fits_word_iff.mpr ⟨hf, hw⟩) fun _ => ?_
  simp [followsOpcodeMap_error, wordWellFormed_iff, *]

/-- The decoding of 5xy0 and 9xy0, the two families with one value of w[3:0] (30_encoding.md R137). -/
theorem strict_nibble_followsOpcodeMap {w : Word} {i : Instr} {e : DecodeError}
    (hf : fieldFamily w = 0x5#4 ∨ fieldFamily w = 0x9#4) (hfits : fieldN w = 0x0#4 → i.row.fits w = true) :
    FollowsOpcodeMap w (if fieldN w = 0x0#4 then .ok i else .error e) := by
  refine iteInduction hfits fun hn => ?_
  rcases hf with hf | hf <;> simp [followsOpcodeMap_error, wordWellFormed_iff, hf, hn]

theorem decodeFamily8_followsOpcodeMap {w : Word} (hf : fieldFamily w = 0x8#4) :
    FollowsOpcodeMap w (decodeFamily8 w) := by
  unfold decodeFamily8
  iterate 9 refine iteInduction (fun hn => fits_familyN_iff.mpr ⟨hf, hn, rfl, rfl⟩) fun _ => ?_
  simp [followsOpcodeMap_error, wordWellFormed_iff, *]

theorem decodeFamilyE_followsOpcodeMap {w : Word} (hf : fieldFamily w = 0xE#4) :
    FollowsOpcodeMap w (decodeFamilyE w) := by
  unfold decodeFamilyE
  iterate 2 refine iteInduction (fun hnn => fits_familyNN_iff.mpr ⟨hf, hnn, rfl⟩) fun _ => ?_
  simp [followsOpcodeMap_error, wordWellFormed_iff, *]

theorem decodeFamilyF_followsOpcodeMap {w : Word} (hf : fieldFamily w = 0xF#4) :
    FollowsOpcodeMap w (decodeFamilyF w) := by
  unfold decodeFamilyF
  iterate 9 refine iteInduction (fun hnn => fits_familyNN_iff.mpr ⟨hf, hnn, rfl⟩) fun _ => ?_
  simp [followsOpcodeMap_error, wordWellFormed_iff, *]

theorem decodeWord_followsOpcodeMap (w : Word) : FollowsOpcodeMap w (decodeWord w) := by
  unfold decodeWord
  refine iteInduction decodeFamily0_followsOpcodeMap fun _ => ?_
  iterate 4 refine iteInduction (fun hf => fits_family_iff.mpr ⟨hf, rfl⟩) fun _ => ?_
  refine iteInduction (fun hf => strict_nibble_followsOpcodeMap (.inl hf) fun hn =>
    fits_familyN_iff.mpr ⟨hf, hn, rfl, rfl⟩) fun _ => ?_
  iterate 2 refine iteInduction (fun hf => fits_family_iff.mpr ⟨hf, rfl⟩) fun _ => ?_
  refine iteInduction decodeFamily8_followsOpcodeMap fun _ => ?_
  refine iteInduction (fun hf => strict_nibble_followsOpcodeMap (.inr hf) fun hn =>
    fits_familyN_iff.mpr ⟨hf, hn, rfl, rfl⟩) fun _ => ?_
  iterate 4 refine iteInduction (fun hf => fits_family_iff.mpr ⟨hf, rfl⟩) fun _ => ?_
  refine iteInduction decodeFamilyE_followsOpcodeMap fun _ => ?_
  have hF : fieldFamily w = 0xF#4 := by bv_omega
  exact decodeFamilyF_followsOpcodeMap hF

theorem row_fits_of_decodeWord {w : Word} {i : Instr} (h : decodeWord w = .ok i) : i.row.fits w = true := by
  have hmap := decodeWord_followsOpcodeMap w
  rwa [h] at hmap

theorem decodeWord_of_wellFormed {w : Word} (h : wordWellFormed w = true) : ∃ i, decodeWord w = .ok i := by
  cases hd : decodeWord w with
  | ok i => exact ⟨i, rfl⟩
  | error e =>
    have hmap := decodeWord_followsOpcodeMap w
    rw [hd, followsOpcodeMap_error] at hmap
    exact absurd h hmap

theorem decodeWord_of_not_wellFormed {w : Word} (h : wordWellFormed w = false) :
    decodeWord w = .error (.unknown w) := by
  cases hd : decodeWord w with
  | ok i =>
    have hwf : wordWellFormed w = true :=
      List.any_eq_true.mpr ⟨i.row, i.row_mem_opcodeRows, row_fits_of_decodeWord hd⟩
    exact absurd hwf (Bool.eq_false_iff.mp h)
  | error e => rw [decodeWord_error hd]

/-- Settles O3: no two rows share a word, and each branch of the decoder answers as the map does. -/
theorem decodeFollowsTheOpcodeMap : Obligations.DecodeFollowsTheOpcodeMap := by
  refine fun w => ⟨fun r hr q hq => eq_of_fits_of_mem hr hq, fun hwf => ?_, decodeWord_of_not_wellFormed⟩
  obtain ⟨i, hd⟩ := decodeWord_of_wellFormed hwf
  exact ⟨i, hd, i.row_mem_opcodeRows, row_fits_of_decodeWord hd⟩

end Sys2Proof

namespace Sys2Proof.Machine

/-! ### One step, a rule for each case (30_encoding.md R130-R132, R141) -/

theorem State.fetchFails_of_le {s : State} (h : 0x0FFF ≤ s.pc.toNat) : s.fetchFails = true := decide_eq_true h

theorem State.fetchFails_of_lt {s : State} (h : s.pc.toNat < 0x0FFF) : s.fetchFails = false :=
  decide_eq_false (Nat.not_le.mpr h)

/-- A failed fetch appends one report and halts; PC stays. -/
theorem State.failFetch_eq (s : State) : s.failFetch =
    { s with halted := true, log := s.log ++ [⟨.fetchRange, s.pc, none, s.pc.toNat⟩] } := rfl

/-- After fetch's advance, the report of an UNKNOWN word holds the address of the word. -/
theorem State.advance_raiseUnknown_eq (s : State) (w : Word) : s.advance.raiseUnknown w =
    { s with pc := s.pc + 2, log := s.log ++ [⟨.unknownOpcode, s.pc, some w, w.toNat⟩] } := by
  rw [State.raiseUnknown, State.raiseWord, State.pcFetch_advance]; rfl

theorem step_of_halted {s : State} (h : s.halted = true) : step s = .next s := if_pos h

theorem step_of_fetchFails {s : State} (hrun : s.halted = false) (hpc : 0x0FFF ≤ s.pc.toNat) :
    step s = .next s.failFetch := by
  rw [step, hrun, State.fetchFails_of_le hpc]; rfl

theorem step_of_decode_ok {s : State} {i : Instr} (hrun : s.halted = false) (hpc : s.pc.toNat < 0x0FFF)
    (hd : decodeWord s.fetchWord = .ok i) : step s = exec i s.advance := by
  rw [step, hrun, State.fetchFails_of_lt hpc, hd]; rfl

theorem step_of_decode_error {s : State} {e : DecodeError} (hrun : s.halted = false) (hpc : s.pc.toNat < 0x0FFF)
    (hd : decodeWord s.fetchWord = .error e) : step s = .next (s.advance.raiseUnknown s.fetchWord) := by
  rw [step, hrun, State.fetchFails_of_lt hpc, hd]; rfl

/-- Settles O7: each clause is the rule of one case of a step, with the state it answers written out. -/
theorem stepIsFetchDecodeExecute : Obligations.StepIsFetchDecodeExecute := by
  refine fun s => ⟨step_of_halted, fun hrun hpc => ?fetchFails, fun i hrun hpc hd => ?runs,
    fun e hrun hpc hd => ?unknown⟩
  case fetchFails => rw [step_of_fetchFails hrun hpc, State.failFetch_eq]
  case runs => exact step_of_decode_ok hrun hpc hd
  case unknown => rw [step_of_decode_error hrun hpc hd, State.advance_raiseUnknown_eq]

/-- Settles O8: a word that fits no row does not decode. -/
theorem unknownWordsAreReportedNoOps : Obligations.UnknownWordsAreReportedNoOps := by
  intro s hrun hpc hword
  rw [step_of_decode_error hrun hpc (decodeWord_of_not_wellFormed hword), State.advance_raiseUnknown_eq]

end Sys2Proof.Machine

namespace Sys2Proof

/-! ### The decoder inverts the encoder -/

/-- Each encoding lists its family and its fields, which the decoder reads back (30_encoding.md R122, R123, R135). -/
theorem decodeWord_encode (i : Instr) : decodeWord (encode i) = .ok i := by
  cases i
  case cls | ret => rfl
  case ldReg | orReg | andReg | xorReg | addReg | subReg | shr | subnReg | shl =>
    simp [encode, decodeWord, decodeFamily8]
  case skp | sknp => simp [encode, decodeWord, decodeFamilyE]
  case ldVxDt | ldVxK | ldDtVx | ldStVx | addI | ldF | ldB | storeRegs | loadRegs =>
    simp [encode, decodeWord, decodeFamilyF]
  all_goals simp [encode, decodeWord]

end Sys2Proof

namespace Sys2Proof.Machine

/-! ### Reports, pushes and pops, skips -/

/-- A report by an instruction changes the log alone (60_exceptions.md R302, R303). -/
theorem State.raise_eq (s : State) (i : Instr) (code : ReportCode) (info : Nat) :
    s.raise i code info = { s with log := s.log ++ [⟨code, s.pc - 2, some (encode i), info⟩] } := rfl

theorem State.toNat_sp_push {s : State} (h : s.sp.toNat < 16) (a : Word) :
    (s.push a).sp.toNat = s.sp.toNat + 1 := by
  rw [State.push_sp]; bv_omega

theorem State.toNat_sp_popToPc {s : State} (h : 0 < s.sp.toNat) : s.popToPc.sp.toNat = s.sp.toNat - 1 := by
  rw [State.popToPc_sp]; bv_omega

theorem State.skipIf_beq (s : State) (a b : Byte) :
    s.skipIf (a == b) = { s with pc := if a.toNat = b.toNat then s.pc + 2 else s.pc } := by
  simp only [State.skipIf_eq, beq_iff_eq, BitVec.toNat_inj]

theorem State.skipIf_bne (s : State) (a b : Byte) :
    s.skipIf (a != b) = { s with pc := if a.toNat ≠ b.toNat then s.pc + 2 else s.pc } := by
  simp only [State.skipIf_eq, bne_iff_ne, ne_eq, BitVec.toNat_inj]

/-! ### The control flow instructions, a rule for each case (40_control_flow.md) -/

theorem exec_ret_of_sp_eq_zero {s : State} (h : s.sp.toNat = 0) :
    exec .ret s = .next (s.raise .ret .stackUnderflow 0) := if_pos h

theorem exec_ret_of_sp_pos {s : State} (hpos : 0 < s.sp.toNat) (hle : s.sp.toNat ≤ 16) :
    exec .ret s = .next s.popToPc := by
  rw [exec, execRet, if_neg hpos.ne', if_neg hle.not_gt]

/-- The range check of JP never fires (40_control_flow.md R164). -/
theorem exec_jp (nnn : Addr12) (s : State) : exec (.jp nnn) s = .next (s.setPc (targetOf nnn)) := by
  simp [exec, execJp]

theorem exec_call_of_sp_eq_16 {s : State} (nnn : Addr12) (h : s.sp.toNat = 16) :
    exec (.call nnn) s = .next (s.raise (.call nnn) .stackOverflow 16) := by
  simp [exec, execCall, h]

theorem exec_call_of_sp_lt_16 {s : State} (nnn : Addr12) (h : s.sp.toNat < 16) :
    exec (.call nnn) s = .next ((s.push s.pc).setPc (targetOf nnn)) := by
  simp [exec, execCall, h.ne, h.le]

theorem exec_jpV0_of_lt {s : State} {nnn : Addr12} (h : s.offsetTarget nnn < 0x1000) :
    exec (.jpV0 nnn) s = .next (s.setPc (BitVec.ofNat 16 (s.offsetTarget nnn))) := by
  simp [exec, execJpV0, h]

theorem exec_jpV0_of_le {s : State} {nnn : Addr12} (h : 0x1000 ≤ s.offsetTarget nnn) :
    exec (.jpV0 nnn) s = .next (s.raise (.jpV0 nnn) .addressRange (s.offsetTarget nnn)) := by
  simp [exec, execJpV0, h]

/-- The number of Bnnn's offset register (10_state.md R65). -/
theorem State.toNat_offsetReg (s : State) (nnn : Addr12) :
    (s.offsetReg nnn).toNat = if s.quirks.jumpVx then nnn.toNat / 256 else 0 := by
  cases h : s.quirks.jumpVx
  · simp [State.offsetReg, h]
  · have hnnn : nnn.toNat / 256 < 16 := by bv_omega
    simp [State.offsetReg, h, Nat.shiftRight_eq_div_pow, Nat.mod_eq_of_lt hnnn]

/-! ### The control flow obligations -/

/-- Settles O9: SP decides between the report and the pop. -/
theorem returnPopsTheStackOrReports : Obligations.ReturnPopsTheStackOrReports := by
  refine ⟨decodeWord_encode .ret, fun s => ⟨fun hzero => ?underflow, fun hpos hle => ?pops⟩⟩
  case underflow => rw [exec_ret_of_sp_eq_zero hzero, State.raise_eq]; rfl
  case pops => exact ⟨s.popToPc, exec_ret_of_sp_pos hpos hle, rfl, State.toNat_sp_popToPc hpos, rfl⟩

/-- Settles O11: SP decides between the report and the push, which writes the entry at SP alone. -/
theorem callPushesTheReturnAddressOrReports : Obligations.CallPushesTheReturnAddressOrReports := by
  refine fun s nnn => ⟨decodeWord_encode (.call nnn), fun hfull => ?overflow, fun hroom => ?pushes⟩
  case overflow => rw [exec_call_of_sp_eq_16 nnn hfull, State.raise_eq, encode]
  case pushes =>
    exact ⟨(s.push s.pc).setPc (targetOf nnn), exec_call_of_sp_lt_16 nnn hroom, rfl, State.toNat_sp_push hroom s.pc,
      targetOf_toNat nnn, s.stackEntry_push s.pc⟩

/-- Settles O16: the register of the statement is the one the quirk switch selects, and a target below memory size fits
in PC. -/
theorem offsetJumpAddsTheSelectedRegister : Obligations.OffsetJumpAddsTheSelectedRegister := by
  refine fun s nnn r target => ⟨decodeWord_encode (.jpV0 nnn), fun hr htarget => ?_⟩
  have hreg : r = s.offsetReg nnn := BitVec.eq_of_toNat_eq (hr.trans (s.toNat_offsetReg nnn).symm)
  obtain rfl : target = s.offsetTarget nnn := by rw [htarget, hreg, State.offsetTarget]
  refine ⟨fun hlt => ?jumps, fun hle => ?reports⟩
  case jumps =>
    have hfits : s.offsetTarget nnn < 2 ^ 16 := hlt.trans (by decide)
    exact ⟨_, exec_jpV0_of_lt hlt, rfl, (BitVec.toNat_ofNat ..).trans (Nat.mod_eq_of_lt hfits)⟩
  case reports => rw [exec_jpV0_of_le hle, State.raise_eq, encode]

/-- Settles O10: the target is never out of range. -/
theorem jumpSetsPc : Obligations.JumpSetsPc :=
  fun s nnn => ⟨decodeWord_encode (.jp nnn), s.setPc (targetOf nnn), exec_jp nnn s, rfl, targetOf_toNat nnn⟩

/-- Settles O14: a skip on equal or on different bytes, the immediate being the second. -/
theorem skipsOnImmediate : Obligations.SkipsOnImmediate := fun s x nn =>
  ⟨decodeWord_encode (.seImm x nn), congrArg Host.Outcome.next (s.skipIf_beq (s.reg x) nn),
    decodeWord_encode (.sneImm x nn), congrArg Host.Outcome.next (s.skipIf_bne (s.reg x) nn)⟩

/-- Settles O15: a skip on equal or on different bytes, both read from registers. -/
theorem skipsOnRegisters : Obligations.SkipsOnRegisters := fun s x y =>
  ⟨decodeWord_encode (.seReg x y), congrArg Host.Outcome.next (s.skipIf_beq (s.reg x) (s.reg y)),
    decodeWord_encode (.sneReg x y), congrArg Host.Outcome.next (s.skipIf_bne (s.reg x) (s.reg y))⟩

end Sys2Proof.Machine

namespace Sys2Proof.Machine

/-! ### The flag byte of each flag, as a number (41_alu.md R181) -/

theorem toNat_flagByte_addCarry (a b : Byte) :
    (flagByte (addCarry a b)).toNat = if 0x100 ≤ a.toNat + b.toNat then 1 else 0 := by
  simp only [flagByte_toNat, addCarry_iff]

theorem toNat_flagByte_noBorrow (a b : Byte) :
    (flagByte (noBorrow a b)).toNat = if b.toNat ≤ a.toNat then 1 else 0 := by
  simp only [flagByte_toNat, noBorrow_iff]

theorem toNat_flagByte_rightBitOut (v : Byte) : (flagByte (rightBitOut v)).toNat = v.toNat % 2 := by
  simp only [flagByte_toNat, rightBitOut_iff]; split <;> omega

theorem toNat_flagByte_leftBitOut (v : Byte) : (flagByte (leftBitOut v)).toNat = v.toNat / 128 := by
  simp only [flagByte_toNat, leftBitOut_iff]; split <;> bv_omega

/-! ### The register and ALU instructions, a rule for each (41_alu.md) -/

theorem exec_ldImm (x : Nibble) (nn : Byte) (s : State) : exec (.ldImm x nn) s = .next (s.setReg x nn) := rfl

theorem exec_addImm (x : Nibble) (nn : Byte) (s : State) :
    exec (.addImm x nn) s = .next (s.setReg x (addResult (s.reg x) nn)) := rfl

theorem exec_ldReg (x y : Nibble) (s : State) : exec (.ldReg x y) s = .next (s.setReg x (s.reg y)) := rfl

theorem exec_orReg (x y : Nibble) (s : State) :
    exec (.orReg x y) s = .next (s.setReg x (s.reg x ||| s.reg y)) := rfl

theorem exec_andReg (x y : Nibble) (s : State) :
    exec (.andReg x y) s = .next (s.setReg x (s.reg x &&& s.reg y)) := rfl

theorem exec_xorReg (x y : Nibble) (s : State) :
    exec (.xorReg x y) s = .next (s.setReg x (s.reg x ^^^ s.reg y)) := rfl

theorem exec_addReg (x y : Nibble) (s : State) : exec (.addReg x y) s =
    .next (s.setRegThenFlag x (addResult (s.reg x) (s.reg y)) (addCarry (s.reg x) (s.reg y))) := rfl

theorem exec_subReg (x y : Nibble) (s : State) : exec (.subReg x y) s =
    .next (s.setRegThenFlag x (subResult (s.reg x) (s.reg y)) (noBorrow (s.reg x) (s.reg y))) := rfl

theorem exec_subnReg (x y : Nibble) (s : State) : exec (.subnReg x y) s =
    .next (s.setRegThenFlag x (subResult (s.reg y) (s.reg x)) (noBorrow (s.reg y) (s.reg x))) := rfl

/-- QUIRK_SHIFT_VY selects the register `z` that is shifted (10_state.md R63). -/
theorem exec_shr {s : State} {x y z : Nibble} (hz : z = if s.quirks.shiftVy then y else x) : exec (.shr x y) s =
    .next (s.setRegThenFlag x (shiftRight (s.reg z)) (rightBitOut (s.reg z))) := by
  rw [hz, ← s.shiftSource_eq]; rfl

/-- QUIRK_SHIFT_VY selects the register `z` that is shifted (10_state.md R63). -/
theorem exec_shl {s : State} {x y z : Nibble} (hz : z = if s.quirks.shiftVy then y else x) : exec (.shl x y) s =
    .next (s.setRegThenFlag x (shiftLeft (s.reg z)) (leftBitOut (s.reg z))) := by
  rw [hz, ← s.shiftSource_eq]; rfl

/-! ### What such an instruction leaves in every register

`g` is how a statement reads a register: the byte, its number, its bits. -/

/-- An instruction that writes V[x] alone. -/
theorem exists_next_of_exec_setReg {β : Type} (g : Byte → β) {i : Instr} {s : State} {x : Nibble} {b : Byte}
    {result : β} (h : exec i s = .next (s.setReg x b)) (hresult : g b = result) :
    ∃ t, exec i s = .next t ∧ t = { s with v := t.v } ∧
      ∀ r, g (t.reg r) = if r = x then result else g (s.reg r) := by
  refine ⟨s.setReg x b, h, s.setReg_eq x b, fun r => ?_⟩
  rw [State.reg_setReg, apply_ite g, hresult]

/-- An instruction that writes V[x] alone, bit by bit. -/
theorem exists_next_of_exec_setReg_bits {i : Instr} {s : State} {x : Nibble} {b : Byte} {bits : Nat → Bool}
    (h : exec i s = .next (s.setReg x b)) (hbits : ∀ k, b.getLsbD k = bits k) :
    ∃ t, exec i s = .next t ∧ t = { s with v := t.v } ∧
      ∀ r k, (t.reg r).getLsbD k = if r = x then bits k else (s.reg r).getLsbD k := by
  obtain ⟨t, hnext, hframe, hregs⟩ := exists_next_of_exec_setReg BitVec.getLsbD h (funext hbits)
  exact ⟨t, hnext, hframe, fun r k => by rw [hregs r, ite_apply]⟩

/-- An instruction that writes V[x] and then VF, so that VF ends with the flag also when x = F (41_alu.md R180). -/
theorem exists_next_of_exec_setRegThenFlag {β : Type} (g : Byte → β) {i : Instr} {s : State} {x : Nibble} {b : Byte}
    {f : Bool} {flag result : β} (h : exec i s = .next (s.setRegThenFlag x b f)) (hflag : g (flagByte f) = flag)
    (hresult : g b = result) :
    ∃ t, exec i s = .next t ∧ t = { s with v := t.v } ∧
      ∀ r, g (t.reg r) = if r = 0xF#4 then flag else if r = x then result else g (s.reg r) := by
  refine ⟨s.setRegThenFlag x b f, h, rfl, fun r => ?_⟩
  rw [State.reg_setRegThenFlag, apply_ite g, apply_ite g, hflag, hresult]

/-- An instruction that subtracts `b` from `a` and sets the no-borrow flag (41_alu.md R203, R205), read as integers. -/
theorem exists_next_of_exec_subtract {i : Instr} {s : State} {x : Nibble} {a b : Byte}
    (h : exec i s = .next (s.setRegThenFlag x (subResult a b) (noBorrow a b))) :
    ∃ t, exec i s = .next t ∧ t = { s with v := t.v } ∧ ∀ r, ((t.reg r).toNat : Int) =
      if r = 0xF#4 then (if b.toNat ≤ a.toNat then 1 else 0)
      else if r = x then ((a.toNat : Int) - b.toNat) % 256
      else (s.reg r).toNat := by
  have hflag : ((flagByte (noBorrow a b)).toNat : Int) = if b.toNat ≤ a.toNat then 1 else 0 := by
    rw [toNat_flagByte_noBorrow]; exact Nat.cast_ite ..
  exact exists_next_of_exec_setRegThenFlag (fun v => (v.toNat : Int)) h hflag (subResult_toNat a b)

/-! ### The register and ALU obligations -/

/-- Settles O20: the carry is the flag of the exact sum, and the result the sum modulo 2^8. -/
theorem addRegistersSetsCarry : Obligations.AddRegistersSetsCarry := fun s x y =>
  ⟨decodeWord_encode (.addReg x y), exists_next_of_exec_setRegThenFlag BitVec.toNat (exec_addReg x y s)
    (toNat_flagByte_addCarry (s.reg x) (s.reg y)) (addResult_toNat (s.reg x) (s.reg y))⟩

/-- Settles O21: the subtraction V[x] - V[y]. -/
theorem subtractSetsNoBorrow : Obligations.SubtractSetsNoBorrow := fun s x y =>
  ⟨decodeWord_encode (.subReg x y), exists_next_of_exec_subtract (exec_subReg x y s)⟩

/-- Settles O22: the subtraction V[y] - V[x], into V[x]. -/
theorem reverseSubtractSetsNoBorrow : Obligations.ReverseSubtractSetsNoBorrow := fun s x y =>
  ⟨decodeWord_encode (.subnReg x y), exists_next_of_exec_subtract (exec_subnReg x y s)⟩

/-- Settles O23: bit 0 of the value shifted is its remainder by 2. -/
theorem shiftRightByQuirk : Obligations.ShiftRightByQuirk := fun s x y z =>
  ⟨decodeWord_encode (.shr x y), fun hz => exists_next_of_exec_setRegThenFlag BitVec.toNat (exec_shr hz)
    (toNat_flagByte_rightBitOut (s.reg z)) (shiftRight_toNat (s.reg z))⟩

/-- Settles O24: bit 7 of the value shifted is its quotient by 128. -/
theorem shiftLeftByQuirk : Obligations.ShiftLeftByQuirk := fun s x y z =>
  ⟨decodeWord_encode (.shl x y), fun hz => exists_next_of_exec_setRegThenFlag BitVec.toNat (exec_shl hz)
    (toNat_flagByte_leftBitOut (s.reg z)) (shiftLeft_toNat (s.reg z))⟩

/-- Settles O17: both loads write V[x] alone. -/
theorem loadImmediateAndCopy : Obligations.LoadImmediateAndCopy := fun s x y nn =>
  ⟨decodeWord_encode (.ldImm x nn), exists_next_of_exec_setReg id (exec_ldImm x nn s) rfl,
    decodeWord_encode (.ldReg x y), exists_next_of_exec_setReg id (exec_ldReg x y s) rfl⟩

/-- Settles O18: the sum modulo 2^8 is the only write. -/
theorem addImmediateWrapsWithoutFlag : Obligations.AddImmediateWrapsWithoutFlag := fun s x nn =>
  ⟨decodeWord_encode (.addImm x nn),
    exists_next_of_exec_setReg BitVec.toNat (exec_addImm x nn s) (addResult_toNat (s.reg x) nn)⟩

/-- Settles O19: each operation acts on the two bytes bit by bit. -/
theorem logicOperationsLeaveVfUnflagged : Obligations.LogicOperationsLeaveVfUnflagged := fun s x y =>
  ⟨decodeWord_encode (.orReg x y), exists_next_of_exec_setReg_bits (exec_orReg x y s) fun _ => BitVec.getLsbD_or,
    decodeWord_encode (.andReg x y), exists_next_of_exec_setReg_bits (exec_andReg x y s) fun _ => BitVec.getLsbD_and,
    decodeWord_encode (.xorReg x y), exists_next_of_exec_setReg_bits (exec_xorReg x y s) fun _ => BitVec.getLsbD_xor⟩

end Sys2Proof.Machine

namespace Sys2Proof.Machine

/-! ### A checked access that reports (20_memory.md R86, R87)

The access of `n + 1` bytes ends at I + n, the address the statements speak of. -/

theorem exec_of_checkRead_range {i : Instr} {s done : State} {n : Nat}
    (h : exec i s = .next (s.checkRead i (n + 1) done)) (hrange : 0x1000 ≤ s.i.toNat + n) :
    exec i s = .next { s with
      log := s.log ++ [⟨.memoryRange, s.pc - 2, some (encode i), max s.i.toNat 0x1000⟩] } := by
  rw [h, State.checkRead_range s i done n.succ_pos (Nat.lt_succ_of_le hrange), State.raise_eq]

/-- A range check is the first check of a write too. -/
theorem exec_of_checkWrite_range {i : Instr} {s done : State} {n : Nat}
    (h : exec i s = .next (s.checkWrite i (n + 1) done)) (hrange : 0x1000 ≤ s.i.toNat + n) :
    exec i s = .next { s with
      log := s.log ++ [⟨.memoryRange, s.pc - 2, some (encode i), max s.i.toNat 0x1000⟩] } :=
  exec_of_checkRead_range h hrange

/-- No block of at most 16 bytes reaches from the font to memory size, so the range check passes. -/
theorem exec_of_checkWrite_rom {i : Instr} {s done : State} {n : Nat}
    (h : exec i s = .next (s.checkWrite i (n + 1) done)) (hn : n < 16) (hrom : s.i.toNat ≤ 0x04F) :
    exec i s = .next { s with log := s.log ++ [⟨.romWrite, s.pc - 2, some (encode i), s.i.toNat⟩] } := by
  have hrange : s.i.toNat + (n + 1) ≤ memorySize := Nat.le_trans (Nat.add_le_add hrom hn) (by decide)
  rw [h, State.checkWrite_rom s i done n.succ_pos hrange (Nat.lt_succ_of_le hrom), State.raise_eq]

/-! ### Bytes stored at I -/

theorem State.read_storeAtIndex_inside {s : State} (hmem : s.MemoryOk) (bytes : List Byte) {k : Nat}
    (hfits : s.i.toNat + bytes.length ≤ memorySize) (hk : k < bytes.length) :
    (s.storeAtIndex bytes).mem.read (s.i.toNat + k) = bytes[k] :=
  Memory.read_writeBytes_inside hmem bytes hk hfits

theorem State.read_storeAtIndex_outside (s : State) {bytes : List Byte} {a : Nat}
    (h : a < s.i.toNat ∨ s.i.toNat + bytes.length ≤ a) : (s.storeAtIndex bytes).mem.read a = s.mem.read a :=
  Memory.read_writeBytes_outside s.mem bytes h

/-- The three decimal digits stored at I, read back as numbers. -/
theorem State.toNat_read_storeAtIndex_decimalDigits {s : State} (hmem : s.MemoryOk) (hrange : s.i.toNat + 2 < 0x1000)
    (b : Byte) {k : Nat} (hk : k < 3) : ((s.storeAtIndex (decimalDigits b)).mem.read (s.i.toNat + k)).toNat =
      [b.toNat / 100, b.toNat / 10 % 10, b.toNat % 10][k] :=
  calc ((s.storeAtIndex (decimalDigits b)).mem.read (s.i.toNat + k)).toNat
    _ = ((decimalDigits b)[k]'hk).toNat :=
      congrArg BitVec.toNat (State.read_storeAtIndex_inside hmem (decimalDigits b) hrange hk)
    _ = ((decimalDigits b).map BitVec.toNat)[k]'hk := (List.getElem_map BitVec.toNat).symm
    _ = _ := List.getElem_of_eq (decimalDigits_toNat b) hk

theorem State.length_regBlock (s : State) (x : Nibble) : (s.regBlock x).length = x.toNat + 1 := by
  rw [State.regBlock, List.length_take, Vector.length_toList, Nat.min_eq_left x.isLt]

theorem State.getElem_regBlock (s : State) {x r : Nibble} (h : r.toNat < (s.regBlock x).length) :
    (s.regBlock x)[r.toNat] = s.reg r := by
  simp only [State.regBlock, List.getElem_take, Vector.getElem_toList, State.reg]

/-! ### The legacy increment (10_state.md R64) -/

/-- The increment writes I alone. -/
theorem State.bumpIndex_eq (s : State) (x : Nibble) : s.bumpIndex x = { s with i := (s.bumpIndex x).i } := by
  unfold State.bumpIndex; split <;> rfl

/-- After a block that lies in memory, the increment does not wrap. -/
theorem State.toNat_bumpIndex_i {s : State} {x : Nibble} (h : s.i.toNat + x.toNat < 0x1000) :
    (s.bumpIndex x).i.toNat = if s.quirks.loadStoreInc then s.i.toNat + x.toNat + 1 else s.i.toNat := by
  have hfits : s.i.toNat + x.toNat + 1 < 2 ^ 16 := Nat.lt_trans (Nat.succ_lt_succ h) (by decide)
  rw [State.bumpIndex_i, apply_ite BitVec.toNat, BitVec.toNat_ofNat, Nat.mod_eq_of_lt hfits]

/-! ### The index and memory transfer instructions, a rule for each case (42_index_memory.md) -/

/-- The range check of LD I, nnn never fires (40_control_flow.md R164). -/
theorem exec_ldI (nnn : Addr12) (s : State) : exec (.ldI nnn) s = .next (s.setIndex (targetOf nnn)) := by
  simp [exec, execLdI]

theorem exec_addI (x : Nibble) (s : State) : exec (.addI x) s =
    .next ((s.setIndex (s.fx1eWrap.narrow (s.indexSum x))).setFlag (indexOverflow (s.indexSum x))) := rfl

theorem exec_ldF (x : Nibble) (s : State) : exec (.ldF x) s = .next (s.setIndex (glyphAddress (s.reg x))) := rfl

theorem exec_ldB (x : Nibble) (s : State) : exec (.ldB x) s =
    .next (s.checkWrite (.ldB x) (2 + 1) (s.storeAtIndex (decimalDigits (s.reg x)))) := rfl

theorem exec_storeRegs (x : Nibble) (s : State) : exec (.storeRegs x) s =
    .next (s.checkWrite (.storeRegs x) (x.toNat + 1) ((s.storeAtIndex (s.regBlock x)).bumpIndex x)) := rfl

theorem exec_loadRegs (x : Nibble) (s : State) : exec (.loadRegs x) s =
    .next (s.checkRead (.loadRegs x) (x.toNat + 1) ((s.loadBlock x).bumpIndex x)) := rfl

theorem exec_ldB_of_legal {s : State} (x : Nibble) (hrom : 0x050 ≤ s.i.toNat) (hrange : s.i.toNat + 2 < 0x1000) :
    exec (.ldB x) s = .next (s.storeAtIndex (decimalDigits (s.reg x))) := by
  rw [exec_ldB, State.checkWrite_ok _ _ _ hrange hrom]

theorem exec_storeRegs_of_legal {s : State} {x : Nibble} (hrom : 0x050 ≤ s.i.toNat)
    (hrange : s.i.toNat + x.toNat < 0x1000) :
    exec (.storeRegs x) s = .next ((s.storeAtIndex (s.regBlock x)).bumpIndex x) := by
  rw [exec_storeRegs, State.checkWrite_ok _ _ _ hrange hrom]

theorem exec_loadRegs_of_legal {s : State} {x : Nibble} (hrange : s.i.toNat + x.toNat < 0x1000) :
    exec (.loadRegs x) s = .next ((s.loadBlock x).bumpIndex x) := by
  rw [exec_loadRegs, State.checkRead_ok _ _ _ (.inr hrange)]

/-! ### The index and memory transfer obligations -/

/-- Settles O27: the overflow is the flag of the exact sum, and I the sum at the width FX1E_WRAP selects. -/
theorem addToIndexSetsOverflow : Obligations.AddToIndexSetsOverflow := by
  refine fun s x => ⟨decodeWord_encode (.addI x), _, exec_addI x s, rfl, ?index, fun r => ?registers⟩
  case index => exact s.fx1eWrap.narrow_toNat (s.indexSum x)
  case registers =>
    rw [State.reg_setFlag, State.reg_setIndex, apply_ite BitVec.toNat]
    simp only [flagByte_toNat, indexOverflow_iff]

/-- Settles O29: the checks decide between the reports and the store of a block of three bytes, the digits. -/
theorem decimalDigitsAreStoredOrReported : Obligations.DecimalDigitsAreStoredOrReported := by
  refine fun s x => ⟨decodeWord_encode (.ldB x), exec_of_checkWrite_range (exec_ldB x s),
    exec_of_checkWrite_rom (exec_ldB x s) (by decide), fun hrom hrange hmem => ?stored⟩
  case stored =>
    have hdigit := fun k hk => State.toNat_read_storeAtIndex_decimalDigits hmem hrange (s.reg x) (k := k) hk
    exact ⟨_, exec_ldB_of_legal x hrom hrange, rfl, hdigit 0 (by decide), hdigit 1 (by decide), hdigit 2 (by decide),
      fun _ ha => s.read_storeAtIndex_outside ha⟩

/-- Settles O30: the checks decide between the reports and the store of V0..Vx as one block. -/
theorem registerBlockIsStoredOrReported : Obligations.RegisterBlockIsStoredOrReported := by
  refine fun s x => ⟨decodeWord_encode (.storeRegs x), exec_of_checkWrite_range (exec_storeRegs x s),
    exec_of_checkWrite_rom (exec_storeRegs x s) x.isLt, fun hrom hrange hmem =>
    ⟨_, exec_storeRegs_of_legal hrom hrange, ?frame, fun r hr => ?inside, fun a ha => ?outside, ?index⟩⟩
  case frame => rw [State.bumpIndex_mem]; exact State.bumpIndex_eq _ x
  case inside =>
    have hfits : s.i.toNat + (s.regBlock x).length ≤ memorySize := by rw [State.length_regBlock]; exact hrange
    have hr : r.toNat < (s.regBlock x).length := by rw [State.length_regBlock]; exact Nat.lt_succ_of_le hr
    rw [State.bumpIndex_mem, State.read_storeAtIndex_inside hmem _ hfits hr, State.getElem_regBlock]
  case outside =>
    rw [State.bumpIndex_mem, State.read_storeAtIndex_outside]
    rwa [State.length_regBlock]
  case index => exact State.toNat_bumpIndex_i hrange

/-- Settles O31: the range check decides between the report and the load of V0..Vx as one block. -/
theorem registerBlockIsLoadedOrReported : Obligations.RegisterBlockIsLoadedOrReported := by
  refine fun s x => ⟨decodeWord_encode (.loadRegs x), exec_of_checkRead_range (exec_loadRegs x s), fun hrange =>
    ⟨_, exec_loadRegs_of_legal hrange, ?frame, fun r => ?registers, ?index⟩⟩
  case frame => rw [State.bumpIndex_v]; exact State.bumpIndex_eq _ x
  case registers => rw [State.reg_bumpIndex, State.reg_loadBlock]
  case index => exact State.toNat_bumpIndex_i (s := s.loadBlock x) hrange

/-- Settles O26: a 12-bit address is never out of range. -/
theorem loadIndexSetsIndex : Obligations.LoadIndexSetsIndex := fun s nnn =>
  ⟨decodeWord_encode (.ldI nnn), s.setIndex (targetOf nnn), exec_ldI nnn s, rfl, targetOf_toNat nnn⟩

/-- Settles O28: the product is taken of the whole byte, and fits in I. -/
theorem glyphAddressIsFiveTimesVx : Obligations.GlyphAddressIsFiveTimesVx := fun s x =>
  ⟨decodeWord_encode (.ldF x), s.setIndex (glyphAddress (s.reg x)), exec_ldF x s, rfl, glyphAddress_toNat (s.reg x)⟩

end Sys2Proof.Machine

namespace Sys2Proof.Machine

/-! ### A draw, pixel by pixel (43_display.md R263-R267) -/

theorem State.dots_nodup (s : State) (x y n : Nibble) : (s.dots x y n).Nodup := spriteDots_nodup ..

theorem State.dots_onScreen (s : State) (x y n : Nibble) : ∀ p ∈ s.dots x y n, p.1 < 64 ∧ p.2 < 32 :=
  spriteDots_onScreen _ _ _ _

theorem State.get_drawSprite (s : State) (x y n : Nibble) (c r : Nat) :
    Display.get (s.drawSprite x y n).display c r =
      if (c, r) ∈ s.dots x y n then !Display.get s.display c r else Display.get s.display c r :=
  Display.get_draw s.display _ (s.dots_nodup x y n) (s.dots_onScreen x y n) c r

/-- On the screen, the pixels drawn are those the sprite covers. -/
theorem State.mem_dots_onScreen (s : State) (x y n : Nibble) {c r : Nat} (hc : c < 64) (hr : r < 32) :
    (c, r) ∈ s.dots x y n ↔ s.spriteCovers x y n c r :=
  (s.mem_dots x y n c r).trans (and_iff_left ⟨hc, hr⟩)

/-- The collision flag of the drawing loop is the sprite's collision, pixel by pixel. -/
theorem State.draw_flag_iff_spriteCollides (s : State) (x y n : Nibble) :
    (Display.draw s.display (s.dots x y n)).2 = true ↔ s.spriteCollides x y n := by
  rw [Display.draw_flag s.display _ (s.dots_nodup x y n) (s.dots_onScreen x y n)]
  constructor
  · rintro ⟨⟨c, r⟩, hdot, hon⟩
    obtain ⟨hcovers, hc, hr⟩ := (s.mem_dots x y n c r).mp hdot
    exact ⟨c, hc, r, hr, hcovers, hon⟩
  · rintro ⟨c, hc, r, hr, hcovers, hon⟩
    exact ⟨(c, r), (s.mem_dots_onScreen x y n hc hr).mpr hcovers, hon⟩

theorem State.reg_drawSprite (s : State) (x y n r : Nibble) : (s.drawSprite x y n).reg r =
    if r = 0xF#4 then flagByte (Display.draw s.display (s.dots x y n)).2 else s.reg r :=
  State.reg_setFlag _ r _

theorem State.vf_drawSprite_of_spriteCollides {s : State} {x y n : Nibble} (h : s.spriteCollides x y n) :
    (s.drawSprite x y n).reg 0xF#4 = 1 := by
  rw [State.reg_drawSprite, if_pos rfl, (s.draw_flag_iff_spriteCollides x y n).mpr h]; rfl

theorem State.vf_drawSprite_of_not_spriteCollides {s : State} {x y n : Nibble} (h : ¬ s.spriteCollides x y n) :
    (s.drawSprite x y n).reg 0xF#4 = 0 := by
  rw [State.reg_drawSprite, if_pos rfl, Bool.eq_false_of_not_eq_true (mt (s.draw_flag_iff_spriteCollides x y n).mp h)]
  rfl

/-- A sprite of no rows draws no pixel, so no collision is found (43_display.md R267). -/
theorem State.drawSprite_zero (s : State) (x y : Nibble) : s.drawSprite x y 0x0#4 = s.setFlag false := rfl

/-! ### The display instructions, a rule for each case -/

theorem exec_cls (s : State) : exec .cls s = .next { s with display := Display.blank } := rfl

theorem exec_drw (x y n : Nibble) (s : State) :
    exec (.drw x y n) s = .next (s.checkRead (.drw x y n) n.toNat (s.drawSprite x y n)) := rfl

theorem exec_drw_of_legal {s : State} (x y : Nibble) {n : Nibble} (h : n.toNat = 0 ∨ s.i.toNat + n.toNat ≤ 0x1000) :
    exec (.drw x y n) s = .next (s.drawSprite x y n) := by
  rw [exec_drw, State.checkRead_ok _ _ _ h]

theorem exec_drw_of_range {s : State} (x y : Nibble) {n : Nibble} (hpos : 0 < n.toNat)
    (hrange : 0x1000 < s.i.toNat + n.toNat) :
    exec (.drw x y n) s = .next (s.raise (.drw x y n) .memoryRange (max s.i.toNat 0x1000)) := by
  rw [exec_drw, State.checkRead_range _ _ _ hpos hrange]

/-! ### The display obligations -/

/-- Settles O34: the range check decides between the report and the draw; on the screen the pixels the drawing loop
visits, each once, are those the sprite covers. -/
theorem drawFlipsTheSpritePixels : Obligations.DrawFlipsTheSpritePixels := by
  refine fun s x y n => ⟨decodeWord_encode (.drw x y n), fun hpos hrange => ?reports, fun hlegal =>
    ⟨s.drawSprite x y n, exec_drw_of_legal x y hlegal, rfl, fun c hc r hr hcovers => ?flips,
      fun c hc r hr hcovers => ?keeps, fun r hr => ?registers, State.vf_drawSprite_of_spriteCollides,
      State.vf_drawSprite_of_not_spriteCollides⟩⟩
  case reports => rw [exec_drw_of_range x y hpos hrange, State.raise_eq, encode]
  case flips => rw [State.get_drawSprite, if_pos ((s.mem_dots_onScreen x y n hc hr).mpr hcovers)]
  case keeps => rw [State.get_drawSprite, if_neg (mt (s.mem_dots_onScreen x y n hc hr).mp hcovers)]
  case registers => rw [State.reg_drawSprite, if_neg hr]

/-- Settles O33: the display is replaced by the blank one. -/
theorem clearTurnsEveryPixelOff : Obligations.ClearTurnsEveryPixelOff :=
  ⟨decodeWord_encode .cls, fun s => ⟨_, exec_cls s, rfl, fun c _ r _ => Display.get_blank c r⟩⟩

/-- Settles O35: the draw of no rows is the clearing of VF. -/
theorem emptySpriteOnlyClearsVf : Obligations.EmptySpriteOnlyClearsVf := by
  refine fun s x y => ⟨s.setFlag false, ?_, rfl, fun r => s.reg_setFlag r false⟩
  rw [exec_drw_of_legal x y (.inl rfl), State.drawSprite_zero]

end Sys2Proof.Machine

namespace Sys2Proof.Machine

/-! ### The keypad and timer instructions, a rule for each case (44_keypad_timers.md) -/

theorem State.keyPressed_of_lt (s : State) {k : Nat} (h : k < 16) : s.keyPressed k = s.keys[k] := by
  rw [State.keyPressed, Vector.getElem?_eq_getElem h, Option.getD_some]

theorem exec_skp_of_le {s : State} {x : Nibble} (h : 16 ≤ (s.reg x).toNat) :
    exec (.skp x) s = .next (s.raise (.skp x) .keyRange (s.reg x).toNat) :=
  if_pos ((keyOutOfRange_iff _).mpr h)

theorem exec_sknp_of_le {s : State} {x : Nibble} (h : 16 ≤ (s.reg x).toNat) :
    exec (.sknp x) s = .next (s.raise (.sknp x) .keyRange (s.reg x).toNat) :=
  if_pos ((keyOutOfRange_iff _).mpr h)

theorem exec_skp_of_lt {s : State} {x : Nibble} (h : (s.reg x).toNat < 16) :
    exec (.skp x) s = .next (s.skipIf s.keys[(s.reg x).toNat]) := by
  rw [exec, execSkp, if_neg (mt (keyOutOfRange_iff _).mp h.not_ge), s.keyPressed_of_lt h]

theorem exec_sknp_of_lt {s : State} {x : Nibble} (h : (s.reg x).toNat < 16) :
    exec (.sknp x) s = .next (s.skipIf !s.keys[(s.reg x).toNat]) := by
  rw [exec, execSknp, if_neg (mt (keyOutOfRange_iff _).mp h.not_ge), s.keyPressed_of_lt h]

theorem exec_ldVxDt (x : Nibble) (s : State) : exec (.ldVxDt x) s = .next (s.setReg x s.dt) := rfl

theorem exec_ldDtVx (x : Nibble) (s : State) : exec (.ldDtVx x) s = .next (s.setDelay (s.reg x)) := rfl

theorem exec_ldStVx (x : Nibble) (s : State) : exec (.ldStVx x) s = .next (s.setSound (s.reg x)) := rfl

theorem transact_tick (s : State) : transact .tick s = .next s.tick := rfl

/-! ### The keypad and timer obligations -/

/-- Settles O37: the index decides between the report and the skip, which SKP takes on a pressed key and SKNP on a
released one. -/
theorem keySkips : Obligations.KeySkips := by
  refine fun s x => ⟨decodeWord_encode (.skp x), decodeWord_encode (.sknp x), fun hrange => ⟨?skpReports, ?sknpReports⟩,
    fun hkey => ⟨?skpSkips, ?sknpSkips⟩⟩
  case skpReports => rw [exec_skp_of_le hrange, State.raise_eq, encode]
  case sknpReports => rw [exec_sknp_of_le hrange, State.raise_eq, encode]
  case skpSkips => rw [exec_skp_of_lt hkey, State.skipIf_eq]
  case sknpSkips => simp only [exec_sknp_of_lt hkey, State.skipIf_eq, Bool.not_eq_true']

/-- Settles O39: the read of DT writes V[x] alone, and each write of a timer that timer alone. -/
theorem timerTransfers : Obligations.TimerTransfers := fun s x =>
  ⟨decodeWord_encode (.ldVxDt x), exists_next_of_exec_setReg id (exec_ldVxDt x s) rfl,
    decodeWord_encode (.ldDtVx x), exec_ldDtVx x s, decodeWord_encode (.ldStVx x), exec_ldStVx x s⟩

/-- Settles O40: both timers count down, and a timer at 0 stays there as the truncated difference does. -/
theorem tickCountsBothTimersDown : Obligations.TickCountsBothTimersDown := fun s =>
  ⟨s.tick, transact_tick s, rfl, countDown_toNat s.dt, countDown_toNat s.st⟩

end Sys2Proof.Machine

namespace Sys2Proof

/-! ### The encoder inverts the decoder

An operand is a field of the word, and what is no operand is the family or the selector that the decoder has matched
(30_encoding.md R122, R123). -/

theorem append_fieldNNN {w : Word} {f : Nibble} (hf : fieldFamily w = f) : f ++ fieldNNN w = w :=
  hf ▸ word_eq_nnn w

theorem append_fieldX_append {w : Word} {f : Nibble} {nn : Byte} (hf : fieldFamily w = f) (hnn : fieldNN w = nn) :
    f ++ fieldX w ++ nn = w :=
  hf ▸ hnn ▸ word_eq_xnn w

theorem append_fieldX_fieldY_append {w : Word} {f n : Nibble} (hf : fieldFamily w = f) (hn : fieldN w = n) :
    f ++ fieldX w ++ fieldY w ++ n = w :=
  hf ▸ hn ▸ word_eq_xyn w

theorem encode_of_decodeFamily0 {w : Word} {i : Instr} (h : decodeFamily0 w = .ok i) : encode i = w := by
  unfold decodeFamily0 at h
  iterate 2 refine ite_elim h (fun hw h => by cases h; exact hw.symm) fun _ h => ?_
  cases h

/-- The decoding of 5xy0 and 9xy0 (30_encoding.md R137). -/
theorem encode_of_strict_nibble {w : Word} {i j : Instr} {e : DecodeError}
    (h : (if fieldN w = 0x0#4 then .ok j else .error e : Except DecodeError Instr) = .ok i)
    (hj : fieldN w = 0x0#4 → encode j = w) : encode i = w :=
  ite_elim h (fun hn h => by cases h; exact hj hn) fun _ h => nomatch h

theorem encode_of_decodeFamily8 {w : Word} {i : Instr} (hf : fieldFamily w = 0x8#4)
    (h : decodeFamily8 w = .ok i) : encode i = w := by
  unfold decodeFamily8 at h
  iterate 9 refine ite_elim h (fun hn h => by cases h; exact append_fieldX_fieldY_append hf hn) fun _ h => ?_
  cases h

theorem encode_of_decodeFamilyE {w : Word} {i : Instr} (hf : fieldFamily w = 0xE#4)
    (h : decodeFamilyE w = .ok i) : encode i = w := by
  unfold decodeFamilyE at h
  iterate 2 refine ite_elim h (fun hnn h => by cases h; exact append_fieldX_append hf hnn) fun _ h => ?_
  cases h

theorem encode_of_decodeFamilyF {w : Word} {i : Instr} (hf : fieldFamily w = 0xF#4)
    (h : decodeFamilyF w = .ok i) : encode i = w := by
  unfold decodeFamilyF at h
  iterate 9 refine ite_elim h (fun hnn h => by cases h; exact append_fieldX_append hf hnn) fun _ h => ?_
  cases h

theorem encode_of_decodeWord {w : Word} {i : Instr} (h : decodeWord w = .ok i) : encode i = w := by
  unfold decodeWord at h
  refine ite_elim h (fun _ h => encode_of_decodeFamily0 h) fun _ h => ?_
  iterate 2 refine ite_elim h (fun hf h => by cases h; exact append_fieldNNN hf) fun _ h => ?_
  iterate 2 refine ite_elim h (fun hf h => by cases h; exact append_fieldX_append hf rfl) fun _ h => ?_
  refine ite_elim h (fun hf h => encode_of_strict_nibble h (append_fieldX_fieldY_append hf)) fun _ h => ?_
  iterate 2 refine ite_elim h (fun hf h => by cases h; exact append_fieldX_append hf rfl) fun _ h => ?_
  refine ite_elim h encode_of_decodeFamily8 fun _ h => ?_
  refine ite_elim h (fun hf h => encode_of_strict_nibble h (append_fieldX_fieldY_append hf)) fun _ h => ?_
  iterate 2 refine ite_elim h (fun hf h => by cases h; exact append_fieldNNN hf) fun _ h => ?_
  refine ite_elim h (fun hf h => by cases h; exact append_fieldX_append hf rfl) fun _ h => ?_
  refine ite_elim h (fun hf h => by cases h; exact append_fieldX_fieldY_append hf rfl) fun _ h => ?_
  refine ite_elim h encode_of_decodeFamilyE fun _ h => ?_
  have hF : fieldFamily w = 0xF#4 := by bv_omega
  exact encode_of_decodeFamilyF hF h

end Sys2Proof

namespace Sys2Proof.Machine

/-! ### A completed instruction makes no report -/

/-- No update that completes an instruction touches the log. -/
theorem Effect.log_eq {i : Instr} {s t : State} (h : Effect i s t) : t.log = s.log := by
  cases i
  case ret => obtain ⟨-, -, rfl⟩ := h; rfl
  case call | jpV0 | drw => obtain ⟨-, rfl⟩ := h; rfl
  case ldVxK => obtain ⟨-, rfl⟩ | ⟨-, rfl⟩ := h <;> rfl
  case seImm | sneImm | seReg | sneReg => subst h; exact s.skipIf_log _
  case skp | sknp => obtain ⟨-, rfl⟩ := h; exact s.skipIf_log _
  case ldB => obtain ⟨-, -, rfl⟩ := h; rfl
  case storeRegs x => obtain ⟨-, -, rfl⟩ := h; exact State.bumpIndex_log _ x
  case loadRegs x => obtain ⟨-, rfl⟩ := h; exact State.bumpIndex_log _ x
  all_goals subst h; rfl

/-! ### What a step does to the log (60_exceptions.md R302, R303) -/

/-- After fetch's advance, the report of an instruction holds the address of its word. -/
theorem State.advance_raise_eq (s : State) (i : Instr) (code : ReportCode) (info : Nat) :
    s.advance.raise i code info =
      { s with pc := s.pc + 2, log := s.log ++ [⟨code, s.pc, some (encode i), info⟩] } := by
  rw [State.raise, State.raiseWord, State.pcFetch_advance]; rfl

/-- A step leaves the log as it is, or appends one report: FETCH_RANGE, or a report of the fetched word. -/
theorem step_log_cases {s t : State} (h : step s = .next t) :
    t.log = s.log ∨
    t = { s with halted := true, log := s.log ++ [⟨.fetchRange, s.pc, none, s.pc.toNat⟩] } ∨
    ∃ code info, code ≠ .fetchRange ∧
      t = { s with pc := s.pc + 2, log := s.log ++ [⟨code, s.pc, some s.fetchWord, info⟩] } := by
  obtain ⟨-, hs⟩ | ⟨-, -, hs⟩ | ⟨-, -, i, hd, hs⟩ | ⟨-, -, -, hs⟩ := step_cases s <;> rw [hs] at h
  case inl => cases h; exact .inl rfl
  case inr.inl => cases h; exact .inr (.inl s.failFetch_eq)
  case inr.inr.inl =>
    obtain ⟨code, info, hcode, rfl⟩ | heffect := exec_cases h
    · exact .inr (.inr ⟨code, info, hcode, by rw [State.advance_raise_eq, encode_of_decodeWord hd]⟩)
    · exact .inl heffect.log_eq
  case inr.inr.inr =>
    cases h
    exact .inr (.inr ⟨.unknownOpcode, _, by decide, s.advance_raiseUnknown_eq s.fetchWord⟩)

/-- Settles O53: the log grows only in the cases of a step that report, and `r` is the report of the case. -/
theorem reportsArePrecise : Obligations.ReportsArePrecise := by
  intro s t r h hlog
  obtain hsame | rfl | ⟨code, info, hcode, rfl⟩ := step_log_cases h
  case inl => simp [hsame] at hlog
  case inr.inl =>
    obtain rfl := List.singleton_inj.mp (List.append_cancel_left hlog)
    exact ⟨rfl, .inl ⟨rfl, rfl⟩⟩
  case inr.inr =>
    obtain rfl := List.singleton_inj.mp (List.append_cancel_left hlog)
    exact ⟨rfl, .inr ⟨hcode, rfl, rfl⟩⟩

end Sys2Proof.Machine

namespace Sys2Proof

/-! ### Decoding -/

/-- Settles O1: the decoder reads back what the encoder lists. -/
theorem decodeOfEncodeIsTheInstruction : Obligations.DecodeOfEncodeIsTheInstruction := decodeWord_encode

/-- Settles O2: the operands, the family and the selector are all of the word's bits. -/
theorem encodeOfDecodedWordIsTheWord : Obligations.EncodeOfDecodedWordIsTheWord := fun _ _ h => encode_of_decodeWord h

/-- Settles O4: eight of the words are encodings, and the other two fit no row of the opcode map. -/
theorem sampleWordsDecode : Obligations.SampleWordsDecode :=
  ⟨decodeWord_encode .cls, decodeWord_encode (.jp 0x234), decodeWord_encode (.seImm 3 0x05),
    decodeWord_encode (.shr 0 1), decodeWord_encode (.jpV0 0x300), decodeWord_encode (.drw 5 0xA 3),
    decodeWord_encode (.skp 1), decodeWord_encode (.storeRegs 3),
    decodeWord_of_not_wellFormed (by decide), decodeWord_of_not_wellFormed (by decide)⟩

/-- The decoder on the two bytes of a word. -/
theorem decodeWord_of_decode {high low : Byte} {i : Instr} {rest : List Byte}
    (h : decode [high, low] = .ok (i, rest)) : decodeWord (wordOfBytes high low) = .ok i := by
  rw [decode] at h
  cases hd : decodeWord (wordOfBytes high low) with
  | ok j => rw [hd] at h; cases h; rfl
  | error e => rw [hd] at h; cases h

end Sys2Proof

namespace Sys2Proof.Machine

/-- Settles O6: the two bytes are the fetched word. -/
theorem stepRunsTheDecodedInstruction : Obligations.StepRunsTheDecodedInstruction :=
  fun _ _ hrun hpc hd => step_of_decode_ok hrun hpc (decodeWord_of_decode hd)

/-! ### Calls and returns (40_control_flow.md, 10_state.md R42) -/

theorem exec_ret_of_16_lt_sp {s : State} (h : 16 < s.sp.toNat) : exec .ret s = .fault .stackPointerAbove16 := by
  rw [exec, execRet, if_neg (by omega), if_pos h]

theorem exec_call_of_16_lt_sp {s : State} (nnn : Addr12) (h : 16 < s.sp.toNat) :
    exec (.call nnn) s = .fault .stackPointerAbove16 := by
  simp [exec, execCall, h, h.ne']

/-- Settles O12: above 16 neither check of SP applies. -/
theorem callAndReturnStopAboveDepth16 : Obligations.CallAndReturnStopAboveDepth16 :=
  fun _ nnn h => ⟨exec_ret_of_16_lt_sp h, exec_call_of_16_lt_sp nnn h⟩

/-- Settles O13: the call leaves SP above 0, and below it the entry that it pushed. -/
theorem returnAfterCallRestoresPc : Obligations.ReturnAfterCallRestoresPc := by
  intro s t u nnn hroom ht hsp hstack
  cases (exec_call_of_sp_lt_16 nnn hroom).symm.trans ht
  have hdepth : u.sp.toNat = s.sp.toNat + 1 := by rw [hsp]; exact State.toNat_sp_push hroom s.pc
  refine ⟨u.popToPc, exec_ret_of_sp_pos (by omega) (by omega), ?pc, ?sp⟩
  case pc =>
    rw [State.popToPc_pc, hdepth, Nat.add_sub_cancel, State.stackEntry_congr hstack]
    exact (s.stackEntry_push s.pc _ hroom).trans (if_pos rfl)
  case sp =>
    rw [State.popToPc_sp, hsp]
    exact BitVec.add_sub_cancel s.sp 1

/-! ### The draws of free values (41_alu.md R215, 44_keypad_timers.md R286, R287) -/

theorem exec_rnd (x : Nibble) (nn : Byte) (s : State) :
    exec (.rnd x nn) s = .next (s.setReg x (Config.randomByte s.draws &&& nn)).countDraw := rfl

theorem exec_ldVxK_of_none {s : State} (x : Nibble) (h : s.pressedKeys = []) :
    exec (.ldVxK x) s = .next (s.setPc s.pcFetch) := if_pos h

theorem exec_ldVxK_of_some {s : State} (x : Nibble) (h : s.pressedKeys ≠ []) : exec (.ldVxK x) s =
    .next (s.setReg x (BitVec.ofNat 8 (s.chooseKey s.pressedKeys))).countDraw := if_neg h

/-- Settles O25: the masked draw is the only write to a register. -/
theorem randomByteIsMasked : Obligations.RandomByteIsMasked := by
  refine fun s x nn => ⟨decodeWord_encode (.rnd x nn), _, exec_rnd x nn s, rfl, fun r k => ?_⟩
  rw [State.reg_countDraw, State.reg_setReg, apply_ite (BitVec.getLsbD · k), BitVec.getLsbD_and]

theorem State.pressedKeys_eq_nil_iff (s : State) :
    s.pressedKeys = [] ↔ ∀ k, (h : k < 16) → s.keys[k] = false := by
  simp only [List.eq_nil_iff_forall_not_mem, State.mem_pressedKeys, not_exists, Bool.not_eq_true]

/-- Settles O38: the key chosen is a pressed one, and its index fits in a register. -/
theorem keyWaitRewindsOrStoresAKey : Obligations.KeyWaitRewindsOrStoresAKey := by
  refine fun s x => ⟨decodeWord_encode (.ldVxK x), fun hnone => ?rewinds, fun ⟨k, hk, hpressed⟩ => ?stores⟩
  case rewinds => exact exec_ldVxK_of_none x (s.pressedKeys_eq_nil_iff.mpr hnone)
  case stores =>
    have hsome : s.pressedKeys ≠ [] := List.ne_nil_of_mem ((s.mem_pressedKeys k).mpr ⟨hk, hpressed⟩)
    obtain ⟨hlt, hchosen⟩ := (s.mem_pressedKeys _).mp (s.chooseKey_mem hsome)
    refine ⟨_, _, hlt, exec_ldVxK_of_some x hsome, rfl, hchosen, fun r => ?_⟩
    rw [State.reg_countDraw, State.reg_setReg, apply_ite BitVec.toNat, BitVec.toNat_ofNat,
      Nat.mod_eq_of_lt (hlt.trans (by decide))]

/-! ### A store and a load, a draw and a draw -/

/-- Settles O32: the load reads the bytes that the store wrote. -/
theorem storeThenLoadRestoresRegisters : Obligations.StoreThenLoadRestoresRegisters := by
  intro s t u x hmem hrom hrange ht humem hui
  obtain ⟨-, -, -, hstored⟩ := registerBlockIsStoredOrReported s x
  obtain ⟨t', ht', -, hblock, -, -⟩ := hstored hrom hrange hmem
  cases ht.symm.trans ht'
  obtain ⟨-, -, hloaded⟩ := registerBlockIsLoadedOrReported u x
  obtain ⟨w, hw, -, hregs, -⟩ := hloaded (hui ▸ hrange)
  refine ⟨w, hw, fun r hr => ?_⟩
  rw [hregs, if_pos hr, humem, hui, hblock r hr]

/-- The pixels a draw visits depend on memory, I and the two position registers alone. -/
theorem State.dots_congr {s u : State} {x y : Nibble} (hmem : u.mem = s.mem) (hi : u.i = s.i)
    (hx : u.reg x = s.reg x) (hy : u.reg y = s.reg y) (n : Nibble) : u.dots x y n = s.dots x y n := by
  simp only [State.dots, State.startColumn, State.startRow, hmem, hi, hx, hy]

/-- Settles O36: the second draw visits the same pixels, and one that the first draw turned on makes it collide. -/
theorem drawingTwiceRestoresTheDisplay : Obligations.DrawingTwiceRestoresTheDisplay := by
  intro s t u x y n hlegal ht hmem hi hdisplay hx hy
  cases (exec_drw_of_legal x y hlegal).symm.trans ht
  have hdots : u.dots x y n = s.dots x y n := State.dots_congr hmem hi hx hy n
  refine ⟨u.drawSprite x y n, exec_drw_of_legal x y (hi ▸ hlegal), fun c _ r _ => ?restored,
    fun ⟨c, hc, r, hr, hcovers, hoff⟩ => State.vf_drawSprite_of_spriteCollides ⟨c, hc, r, hr, ?covered, ?on⟩⟩
  case restored =>
    rw [State.get_drawSprite, hdots, hdisplay, State.get_drawSprite]
    split
    · exact Bool.not_not _
    · rfl
  case covered =>
    rw [← State.mem_dots_onScreen u x y n hc hr, hdots]
    exact (s.mem_dots_onScreen x y n hc hr).mpr hcovers
  case on =>
    rw [hdisplay, State.get_drawSprite, if_pos ((s.mem_dots_onScreen x y n hc hr).mpr hcovers), hoff]
    rfl

end Sys2Proof.Machine

namespace Sys2Proof.Machine

/-! ### What an instruction writes

`Effect` has one clause for each instruction. Here those with the same kind of write share a case, each case with the
condition on the instruction or on the state that the frame rules and the invariants need. -/

/-- The instruction `i`, started in `s`, answers `t`: the one case for a report, and one for each kind of write. -/
inductive Answer (i : Instr) (s : State) : State → Prop where
  | report (code : ReportCode) (info : Nat) : Answer i s (s.raise i code info)
  | clear (hi : i = .cls) : Answer i s { s with display := Display.blank }
  | draw (x y n : Nibble) (hi : i = .drw x y n) : Answer i s (s.drawSprite x y n)
  | pop (hi : i = .ret) (hpos : 0 < s.sp.toNat) (hle : s.sp.toNat ≤ 16) : Answer i s s.popToPc
  | push (nnn : Addr12) (hi : i = .call nnn) (hroom : s.sp.toNat < 16) :
    Answer i s ((s.push s.pc).setPc (targetOf nnn))
  | jump (w : Word) (hw : w.toNat < 0x1000 ∨ w = s.pc ∨ w = s.pc + 2 ∨ w = s.pcFetch) : Answer i s (s.setPc w)
  | register (x : Nibble) (b : Byte) (draws : Nat) (hx : namesDestination x i = true) :
    Answer i s { s.setReg x b with draws := draws }
  | registerAndFlag (x : Nibble) (b : Byte) (f : Bool) (hx : namesDestination x i = true)
    (hf : writesFlag i = true) : Answer i s (s.setRegThenFlag x b f)
  | index (w : Word) : Answer i s (s.setIndex w)
  | indexAndFlag (w : Word) (f : Bool) (hf : writesFlag i = true) : Answer i s ((s.setIndex w).setFlag f)
  | delay (x : Nibble) (hi : i = .ldDtVx x) : Answer i s (s.setDelay (s.reg x))
  | sound (x : Nibble) (hi : i = .ldStVx x) : Answer i s (s.setSound (s.reg x))
  | store (bytes : List Byte) (w : Word) (hi : (∃ x, i = .ldB x) ∨ ∃ x, i = .storeRegs x)
    (hrom : fontSize ≤ s.i.toNat) : Answer i s { s.storeAtIndex bytes with i := w }
  | load (x : Nibble) (w : Word) (hi : i = .loadRegs x) : Answer i s { s.loadBlock x with i := w }

theorem Answer.skip (i : Instr) (s : State) (c : Bool) : Answer i s (s.skipIf c) := by
  cases c
  · exact .jump s.pc (.inr (.inl rfl))
  · exact .jump (s.pc + 2) (.inr (.inr (.inl rfl)))

theorem Effect.answer {i : Instr} {s t : State} (h : Effect i s t) : Answer i s t := by
  cases i
  case cls => subst h; exact .clear rfl
  case drw => obtain ⟨-, rfl⟩ := h; exact .draw _ _ _ rfl
  case ret => obtain ⟨hpos, hle, rfl⟩ := h; exact .pop rfl hpos hle
  case call => obtain ⟨hroom, rfl⟩ := h; exact .push _ rfl hroom
  case jp nnn => subst h; exact .jump _ (.inl (by rw [targetOf_toNat]; exact nnn.isLt))
  case jpV0 nnn =>
    obtain ⟨hlt, rfl⟩ := h
    exact .jump _ (.inl (by rw [BitVec.toNat_ofNat]; exact (Nat.mod_le ..).trans_lt hlt))
  case seImm | sneImm | seReg | sneReg => subst h; exact .skip ..
  case skp | sknp => obtain ⟨-, rfl⟩ := h; exact .skip ..
  case ldImm x _ | addImm x _ | ldReg x _ | orReg x _ | andReg x _ | xorReg x _ | rnd x _ | ldVxDt x =>
    subst h; exact .register x _ _ (beq_self_eq_true x)
  case ldVxK x =>
    obtain ⟨-, rfl⟩ | ⟨-, rfl⟩ := h
    · exact .jump s.pcFetch (.inr (.inr (.inr rfl)))
    · exact .register x _ _ (beq_self_eq_true x)
  case addReg x _ | subReg x _ | subnReg x _ | shr x _ | shl x _ =>
    subst h; exact .registerAndFlag x _ _ (beq_self_eq_true x) rfl
  case ldI | ldF => subst h; exact .index _
  case addI => subst h; exact .indexAndFlag _ _ rfl
  case ldDtVx => subst h; exact .delay _ rfl
  case ldStVx => subst h; exact .sound _ rfl
  case ldB x => obtain ⟨hrom, -, rfl⟩ := h; exact .store (decimalDigits (s.reg x)) s.i (.inl ⟨x, rfl⟩) hrom
  case storeRegs x =>
    obtain ⟨hrom, -, rfl⟩ := h
    rw [State.bumpIndex_eq]; exact .store _ _ (.inr ⟨x, rfl⟩) hrom
  case loadRegs x => obtain ⟨-, rfl⟩ := h; rw [State.bumpIndex_eq]; exact .load x _ rfl

theorem answer_of_exec {i : Instr} {s t : State} (h : exec i s = .next t) : Answer i s t := by
  obtain ⟨code, info, -, rfl⟩ | heffect := exec_cases h
  · exact .report code info
  · exact heffect.answer

/-! ### Frame rules: which instructions can change a field -/

/-- Settles O54: the other kinds of write leave the display alone. -/
theorem onlyDisplayInstructionsChangeTheDisplay : Obligations.OnlyDisplayInstructionsChangeTheDisplay := by
  intro i s t h hne
  cases answer_of_exec h with
  | clear hi => exact .inl hi
  | draw x y n hi => exact .inr ⟨x, y, n, hi⟩
  | _ => exact absurd rfl hne

/-- Settles O55: the other kinds of write leave memory alone. -/
theorem onlyBlockStoresChangeMemory : Obligations.OnlyBlockStoresChangeMemory := by
  intro i s t h hne
  cases answer_of_exec h with
  | store bytes w hi => exact hi
  | _ => exact absurd rfl hne

/-- Settles O58: the other kinds of write leave both timers alone. -/
theorem onlyTimerInstructionsChangeTimers : Obligations.OnlyTimerInstructionsChangeTimers := by
  intro i s t h
  cases answer_of_exec h with
  | delay x hi => exact ⟨fun _ => ⟨x, hi⟩, fun hne => absurd rfl hne⟩
  | sound x hi => exact ⟨fun hne => absurd rfl hne, fun _ => ⟨x, hi⟩⟩
  | _ => exact ⟨fun hne => absurd rfl hne, fun hne => absurd rfl hne⟩

theorem State.eq_vf_of_reg_setFlag_ne {s : State} {f : Bool} {r : Nibble} (h : (s.setFlag f).reg r ≠ s.reg r) :
    r = 0xF#4 := by
  by_contra hr
  exact h (by rw [State.reg_setFlag, if_neg hr])

/-- Settles O56: a kind of write that reaches a register names it or sets the flag. -/
theorem onlyNamedRegistersAndTheFlagChange : Obligations.OnlyNamedRegistersAndTheFlagChange := by
  intro i s t r h hne
  cases answer_of_exec h with
  | register x b draws hx =>
    obtain rfl : r = x := by
      by_contra hr
      exact hne ((State.reg_setReg s x r b).trans (if_neg hr))
    exact .inl hx
  | registerAndFlag x b f hx hf =>
    by_cases hr : r = x
    · exact .inl (hr ▸ hx)
    · exact .inr ⟨State.eq_vf_of_reg_setFlag_ne (s := s.setReg x b) (by rwa [State.reg_setReg, if_neg hr]), hf⟩
  | draw x y n hi => exact .inr ⟨State.eq_vf_of_reg_setFlag_ne hne, hi ▸ rfl⟩
  | indexAndFlag w f hf => exact .inr ⟨State.eq_vf_of_reg_setFlag_ne hne, hf⟩
  | load x w hi =>
    have hle : r.toNat ≤ x.toNat := by
      by_contra hlt
      exact hne ((State.reg_loadBlock s x r).trans (if_neg hlt))
    exact .inl (hi ▸ decide_eq_true hle)
  | _ => exact absurd rfl hne

/-- Settles O45: RET takes one from SP only above 0, and CALL adds one only below 16. -/
theorem stackPointerStaysWithinDepth : Obligations.StackPointerStaysWithinDepth := by
  intro i s t h
  cases answer_of_exec h with
  | pop hi hpos hle =>
    have hsp := State.toNat_sp_popToPc hpos
    exact ⟨fun _ => by omega, fun _ => .inl ⟨hi, by omega⟩⟩
  | push nnn hi hroom =>
    have hsp := State.toNat_sp_push hroom s.pc
    exact ⟨fun _ => hsp.trans_le hroom, fun _ => .inr ⟨nnn, hi, hsp⟩⟩
  | _ => exact ⟨id, fun hne => absurd rfl hne⟩

/-! ### What a step answers -/

/-- A step from `s` answers `t`. -/
inductive StepAnswer (s : State) : State → Prop where
  | halted (hhalted : s.halted = true) : StepAnswer s s
  | failFetch (hpc : 0x0FFF ≤ s.pc.toNat) : StepAnswer s s.failFetch
  | runs {t : State} (i : Instr) (hrun : s.halted = false) (hpc : s.pc.toNat < 0x0FFF)
    (hanswer : Answer i s.advance t) : StepAnswer s t
  | unknown (hrun : s.halted = false) (hpc : s.pc.toNat < 0x0FFF) :
    StepAnswer s (s.advance.raiseUnknown s.fetchWord)

theorem stepAnswer_of_step {s t : State} (h : step s = .next t) : StepAnswer s t := by
  obtain ⟨hhalted, hs⟩ | ⟨-, hfetch, hs⟩ | ⟨hrun, hfetch, i, -, hs⟩ | ⟨hrun, hfetch, -, hs⟩ := step_cases s <;>
    rw [hs] at h
  case inl => cases h; exact .halted hhalted
  case inr.inl => cases h; exact .failFetch (of_decide_eq_true hfetch)
  case inr.inr.inl => exact .runs i hrun (Nat.lt_of_not_le (of_decide_eq_false hfetch)) (answer_of_exec h)
  case inr.inr.inr => cases h; exact .unknown hrun (Nat.lt_of_not_le (of_decide_eq_false hfetch))

/-- Settles O49: of the cases of a step, only an instruction could stop, and with SP at most 16 none does. -/
theorem stepAlwaysAnswersANextState : Obligations.StepAlwaysAnswersANextState := by
  intro s hsp
  obtain ⟨-, hs⟩ | ⟨-, -, hs⟩ | ⟨-, -, i, -, hs⟩ | ⟨-, -, -, hs⟩ := step_cases s <;> rw [hs]
  case inr.inr.inl => exact exec_answers i hsp
  all_goals exact ⟨_, rfl⟩

/-- Settles O57: no case of a step, and no kind of write, reaches these fields. -/
theorem stepKeepsKeysAndSwitches : Obligations.StepKeepsKeysAndSwitches := by
  intro s t h
  cases stepAnswer_of_step h with
  | runs i hrun hpc hanswer => cases hanswer <;> exact ⟨rfl, rfl, rfl⟩
  | _ => exact ⟨rfl, rfl, rfl⟩

end Sys2Proof.Machine

namespace Sys2Proof.Machine

/-! ### What the host's transactions write (60_exceptions.md R340) -/

theorem State.load_cases (s : State) (image : Option (List Byte)) :
    (∃ code info, s.load image = s.raiseLoad code info) ∨
    ∃ bytes, s.load image = { s with mem := s.mem.writeBytes loadBase bytes } := by
  match image with
  | none => exact .inl ⟨_, _, s.load_none⟩
  | some [] => exact .inl ⟨_, _, s.load_nil⟩
  | some (b :: bs) =>
    by_cases hmax : maxImage < (b :: bs).length
    · exact .inl ⟨_, _, s.load_of_maxImage_lt hmax⟩
    · exact .inr ⟨b :: bs, if_neg hmax⟩

/-- A transaction that is no step changes only memory, the timers, the keys and the log. -/
theorem transact_frame {a : Transaction} {s t : State} (ha : a ≠ .step) (h : transact a s = .next t) :
    t = { s with mem := t.mem, dt := t.dt, st := t.st, keys := t.keys, log := t.log } := by
  cases a with
  | step => exact absurd rfl ha
  | tick => cases h; rfl
  | keys keys => cases h; rfl
  | load image =>
    cases h
    obtain ⟨code, info, hload⟩ | ⟨bytes, hload⟩ := s.load_cases image
    · rw [hload]; rfl
    · rw [hload]

/-! ### Memory: what a transaction writes lies above the font -/

theorem transact_mem_cases {a : Transaction} {s t : State} (h : transact a s = .next t) :
    t.mem = s.mem ∨ ∃ base bytes, fontSize ≤ base ∧ t.mem = s.mem.writeBytes base bytes := by
  cases a with
  | step =>
    cases stepAnswer_of_step h with
    | runs i hrun hpc hanswer =>
      cases hanswer with
      | store bytes w hi hrom => exact .inr ⟨s.i.toNat, bytes, hrom, rfl⟩
      | _ => exact .inl rfl
    | _ => exact .inl rfl
  | tick => cases h; exact .inl rfl
  | keys keys => cases h; exact .inl rfl
  | load image =>
    cases h
    obtain ⟨code, info, hload⟩ | ⟨bytes, hload⟩ := s.load_cases image <;> rw [hload]
    · exact .inl rfl
    · exact .inr ⟨loadBase, bytes, by decide, rfl⟩

/-- Settles O44: a block of writes keeps the canonical form. -/
theorem transactionsKeepMemoryCanonical : Obligations.TransactionsKeepMemoryCanonical := by
  intro a s t hmem h
  obtain hsame | ⟨base, bytes, -, hwrite⟩ := transact_mem_cases h
  · rwa [State.MemoryOk, hsame]
  · rw [State.MemoryOk, hwrite]; exact Memory.writeBytes_wf hmem base bytes

/-- Settles O50: a block of writes leaves the bytes below it alone, and the font lies below every block. -/
theorem fontRomIsImmutable : Obligations.FontRomIsImmutable := by
  intro a s t h k hk
  obtain hsame | ⟨base, bytes, hbase, hwrite⟩ := transact_mem_cases h
  · rw [hsame]
  · rw [hwrite, Memory.read_writeBytes_outside _ _ (.inl (hk.trans_le hbase))]

/-! ### The halted state and the log (10_state.md R70, R71) -/

/-- A step that runs writes the halted state only when its fetch fails. -/
theorem le_pc_of_step_halts {s t : State} (h : step s = .next t) (hrun : s.halted = false) (hstop : t.halted = true) :
    0x0FFF ≤ s.pc.toNat := by
  have hne : t.halted ≠ s.halted := by rw [hrun, hstop]; decide
  cases stepAnswer_of_step h with
  | failFetch hpc => exact hpc
  | runs i _ _ hanswer => cases hanswer <;> exact absurd rfl hne
  | _ => exact absurd rfl hne

/-- Settles O51: a halted step does nothing, and the host's other transactions do not write the halted state. -/
theorem haltedIsFinalAndOnlyFetchHalts : Obligations.HaltedIsFinalAndOnlyFetchHalts := by
  intro a s t h
  by_cases ha : a = .step
  · subst ha
    refine ⟨fun hhalted => ?_, fun hrun hstop => ⟨rfl, le_pc_of_step_halts h hrun hstop⟩⟩
    cases (step_of_halted hhalted).symm.trans h
    exact ⟨hhalted, fun _ => rfl⟩
  · have hsame : t.halted = s.halted := by rw [transact_frame ha h]
    refine ⟨fun hhalted => ⟨hsame.trans hhalted, fun hstep => absurd hstep ha⟩, fun hrun hstop => ?_⟩
    rw [hsame, hrun] at hstop
    cases hstop

/-- Settles O52: a step and a load make at most one report, and the other transactions none. -/
theorem logGrowsByAtMostOneReport : Obligations.LogGrowsByAtMostOneReport := by
  intro a s t h
  cases a with
  | step =>
    obtain hsame | rfl | ⟨code, info, -, rfl⟩ := step_log_cases h
    · exact .inl hsame
    · exact .inr ⟨_, rfl⟩
    · exact .inr ⟨_, rfl⟩
  | tick => cases h; exact .inl rfl
  | keys keys => cases h; exact .inl rfl
  | load image =>
    cases h
    obtain ⟨code, info, hload⟩ | ⟨bytes, hload⟩ := s.load_cases image <;> rw [hload]
    · exact .inr ⟨_, rfl⟩
    · exact .inl rfl

/-! ### The bounds of PC and of the stack entries (10_state.md R41) -/

/-- After fetch's advance PC lies between 2 and memory size, so that it can rewind, skip and be pushed. -/
theorem Answer.pcBounded {i : Instr} {s t : State} (h : Answer i s t) (hlow : 2 ≤ s.pc.toNat)
    (hhigh : s.pc.toNat ≤ 0x1000) (hstack : ∀ k < 16, (s.stackEntry k).toNat ≤ 0x1000) : t.PcBounded := by
  cases h with
  | pop hi hpos hle => exact ⟨(hstack (s.sp.toNat - 1) (by omega)).trans (by decide), hstack⟩
  | push nnn hi hroom =>
    refine ⟨?_, fun k hk => ?_⟩
    · rw [State.setPc_pc, targetOf_toNat]; omega
    · refine (congrArg BitVec.toNat (s.stackEntry_push s.pc k hk)).trans_le ?_
      split
      · exact hhigh
      · exact hstack k hk
  | jump w hw =>
    refine ⟨?_, hstack⟩
    rw [State.setPc_pc]
    obtain hlt | rfl | rfl | rfl := hw
    · omega
    · omega
    · bv_omega
    · rw [State.pcFetch]; bv_omega
  | _ => exact ⟨hhigh.trans (by decide), hstack⟩

/-- Settles O46: a step that gets past fetch starts below 0x0FFF; otherwise PC stays. -/
theorem stepKeepsPcBounded : Obligations.StepKeepsPcBounded := by
  intro s t ⟨hpc, hstack⟩ h
  cases stepAnswer_of_step h with
  | halted | failFetch => exact ⟨hpc, hstack⟩
  | runs i hrun hfetch hanswer =>
    exact hanswer.pcBounded (by rw [State.advance_pc]; bv_omega) (by rw [State.advance_pc]; bv_omega) hstack
  | unknown hrun hfetch =>
    refine ⟨?_, hstack⟩
    rw [State.raiseUnknown_pc, State.advance_pc]; bv_omega

/-! ### The invariant along a run -/

theorem step_stackPointerOk {s t : State} (hsp : s.StackPointerOk) (h : step s = .next t) : t.StackPointerOk := by
  obtain ⟨-, hs⟩ | ⟨-, -, hs⟩ | ⟨-, -, i, -, hs⟩ | ⟨-, -, -, hs⟩ := step_cases s <;> rw [hs] at h
  case inr.inr.inl => exact (stackPointerStaysWithinDepth i _ _ h).1 hsp
  all_goals cases h; exact hsp

theorem transact_inv {a : Transaction} {s t : State} (hinv : s.Inv) (h : transact a s = .next t) : t.Inv := by
  obtain ⟨hmem, hsp, hpc⟩ := hinv
  refine ⟨transactionsKeepMemoryCanonical a s t hmem h, ?_⟩
  by_cases ha : a = .step
  · subst ha
    exact ⟨step_stackPointerOk hsp h, stepKeepsPcBounded s t hpc h⟩
  · rw [transact_frame ha h]
    exact ⟨hsp, hpc⟩

theorem transact_answers (a : Transaction) {s : State} (hsp : s.StackPointerOk) : ∃ t, transact a s = .next t := by
  cases a with
  | step => exact stepAlwaysAnswersANextState s hsp
  | tick | keys | load => exact ⟨_, rfl⟩

/-- Settles O47: by induction on the transactions, each of which answers a state that meets the invariant. -/
theorem runsKeepTheInvariantAndNeverStop : Obligations.RunsKeepTheInvariantAndNeverStop := by
  intro as
  induction as with
  | nil => exact fun s hinv => ⟨s, rfl, hinv⟩
  | cons a rest ih =>
    intro s hinv
    have ⟨_, hsp, _⟩ := hinv
    obtain ⟨t, ht⟩ := transact_answers a hsp
    obtain ⟨u, hu, huinv⟩ := ih t (transact_inv hinv ht)
    exact ⟨u, by rw [transactAll, ht]; exact hu, huinv⟩

/-! ### Construction (10_state.md R75) -/

theorem construct_inv {p : Construction} (h : p.pcReset.toNat ≤ 0x1002) : (State.construct p).Inv :=
  ⟨Memory.writeBytes_wf Memory.wf_nil 0 p.font.toList, Nat.zero_le _, h, fun k _ => by
    rw [State.stackEntry_construct]; exact Nat.zero_le _⟩

/-- Writing a byte that an unlisted address reads as lists no cell. -/
theorem Memory.write_nil_initial (a : Nat) : Memory.write [] a (Memory.initial a) = [] := by
  simp [Memory.write, Memory.insert, Memory.cons]

theorem Memory.writeBytes_nil_of_initial {a : Nat} (bytes : List Byte)
    (h : ∀ k, (hk : k < bytes.length) → bytes[k] = Memory.initial (a + k)) : Memory.writeBytes [] a bytes = [] := by
  induction bytes generalizing a with
  | nil => rfl
  | cons v vs ih =>
    obtain rfl : v = Memory.initial a := h 0 (Nat.succ_pos _)
    rw [Memory.writeBytes, Memory.write_nil_initial]
    refine ih fun k hk => ?_
    rw [Nat.add_assoc, Nat.add_comm 1]
    exact h (k + 1) (Nat.succ_lt_succ hk)

/-- The parameters of the model's reset (log entries 1 to 4). -/
def recommendedConstruction : Construction where
  pcReset := Config.pcReset
  font := ⟨Config.font.toArray, rfl⟩
  quirks := ⟨false, false, false⟩
  fx1eWrap := .full16

theorem construct_recommended : State.construct recommendedConstruction = State.reset := by
  have hmem : Memory.writeBytes [] 0 Config.font = [] :=
    Memory.writeBytes_nil_of_initial Config.font fun k hk => by
      rw [Memory.initial, Nat.zero_add, List.getD_eq_getElem _ _ hk]
  exact congrArg (fun m => { State.reset with mem := m }) hmem

/-- Settles O43: writing the recommended font lists no cell. -/
theorem resetIsTheRecommendedConstruction : Obligations.ResetIsTheRecommendedConstruction :=
  ⟨recommendedConstruction, rfl, rfl, construct_recommended⟩

/-- Settles O48: the reset state is a construction with PC_RESET = 0x200. -/
theorem constructionMeetsTheInvariant : Obligations.ConstructionMeetsTheInvariant :=
  ⟨construct_recommended ▸ construct_inv (by decide), fun _ => construct_inv⟩

end Sys2Proof.Machine

namespace Sys2Proof.Machine

/-! ### What the program cannot observe: the log and the stale stack entries (60_exceptions.md R301, 10_state.md R45) -/

/-- `s` with the log `l` and the call stack `st` in place of its own. -/
def State.withHidden (s : State) (l : List Report) (st : Vector Word 16) : State := { s with log := l, stack := st }

@[simp] theorem State.withHidden_i (s : State) (l : List Report) (st : Vector Word 16) :
    (s.withHidden l st).i = s.i := rfl
@[simp] theorem State.withHidden_sp (s : State) (l : List Report) (st : Vector Word 16) :
    (s.withHidden l st).sp = s.sp := rfl

/-- `s'` is `s` but for the log and the stack entries at and above SP; and for neither where it is to be kept. -/
structure Alike (keepLog keepStack : Prop) (s s' : State) : Prop where
  visible : s' = s.withHidden s'.log s'.stack
  below : ∀ k < s.sp.toNat, s'.stackEntry k = s.stackEntry k
  log : keepLog → s'.log = s.log
  stack : keepStack → s'.stack = s.stack

section
variable {keepLog keepStack : Prop} {s t : State} {l : List Report} {st : Vector Word 16}

/-- Writes that touch neither SP nor the stack nor the log. -/
theorem Alike.frame (h : Alike keepLog keepStack s (s.withHidden l st)) (hsp : t.sp = s.sp)
    (hstack : t.stack = s.stack) (hlog : t.log = s.log) : Alike keepLog keepStack t (t.withHidden l st) where
  visible := rfl
  below k hk := (h.below k (hsp ▸ hk)).trans (State.stackEntry_congr hstack k).symm
  log hk := (h.log hk).trans hlog.symm
  stack hk := (h.stack hk).trans hstack.symm

theorem Alike.appendReport (h : Alike keepLog keepStack s (s.withHidden l st)) (r : Report) :
    Alike keepLog keepStack (s.appendReport r) ((s.withHidden l st).appendReport r) where
  visible := rfl
  below := h.below
  log hk := congrArg (· ++ [r]) (h.log hk)
  stack := h.stack

theorem Alike.skipIf (h : Alike keepLog keepStack s (s.withHidden l st)) (c : Bool) :
    Alike keepLog keepStack (s.skipIf c) ((s.withHidden l st).skipIf c) := by
  rw [State.skipIf_eq, State.skipIf_eq]; exact h.frame rfl rfl rfl

/-- The legacy increment, after writes that touch neither SP nor the stack nor the log. -/
theorem Alike.bumpIndex (h : Alike keepLog keepStack s (s.withHidden l st)) (x : Nibble) :
    Alike keepLog keepStack (s.bumpIndex x) ((s.withHidden l st).bumpIndex x) := by
  rw [State.bumpIndex_eq, State.bumpIndex_eq (s.withHidden l st), State.bumpIndex_i, State.bumpIndex_i]
  exact h.frame rfl rfl rfl

theorem Alike.checkRead {done done' : State} (h : Alike keepLog keepStack s (s.withHidden l st)) (i : Instr)
    (count : Nat) (hdone : Alike keepLog keepStack done done') :
    Alike keepLog keepStack (s.checkRead i count done) ((s.withHidden l st).checkRead i count done') := by
  simp only [State.checkRead, State.withHidden_i]
  cases rangeViolation s.i.toNat count with
  | some a => exact h.appendReport _
  | none => exact hdone

theorem Alike.checkWrite {done done' : State} (h : Alike keepLog keepStack s (s.withHidden l st)) (i : Instr)
    (count : Nat) (hdone : Alike keepLog keepStack done done') :
    Alike keepLog keepStack (s.checkWrite i count done) ((s.withHidden l st).checkWrite i count done') := by
  refine h.checkRead i count ?_
  rw [State.withHidden_i]
  cases romViolation s.i.toNat count with
  | some a => exact h.appendReport _
  | none => exact hdone

/-- A pop reads an entry below SP. -/
theorem Alike.popToPc (h : Alike keepLog keepStack s (s.withHidden l st)) (hpos : 0 < s.sp.toNat) :
    Alike keepLog keepStack s.popToPc (s.withHidden l st).popToPc where
  visible := by
    have hentry := h.below (s.sp.toNat - 1) (Nat.sub_one_lt_of_lt hpos)
    exact congrArg (fun w => { (s.withHidden l st).popToPc with pc := w }) hentry
  below k hk := h.below k (hk.trans_le ((State.toNat_sp_popToPc hpos).trans_le (Nat.sub_le _ _)))
  log := h.log
  stack := h.stack

/-- A push makes the entry at SP the same in both. -/
theorem Alike.push (h : Alike keepLog keepStack s (s.withHidden l st)) (hroom : s.sp.toNat < 16) (a : Word) :
    Alike keepLog keepStack (s.push a) ((s.withHidden l st).push a) where
  visible := rfl
  below k hk := by
    rw [State.toNat_sp_push hroom] at hk
    have hk16 : k < 16 := by omega
    rw [State.stackEntry_push _ _ _ hk16, State.stackEntry_push _ _ _ hk16]
    rw [State.withHidden_sp]
    split
    · rfl
    · exact h.below k (by omega)
  log := h.log
  stack hk := congrArg (fun st => st.setIfInBounds s.sp.toNat a) (h.stack hk)

end

/-- The same instruction does the same in two states that are alike. -/
theorem exec_alike {keepLog keepStack : Prop} {i : Instr} {s s' t : State} (h : Alike keepLog keepStack s s')
    (ht : exec i s = .next t) : ∃ t', exec i s' = .next t' ∧ Alike keepLog keepStack t t' := by
  obtain ⟨l, st, rfl⟩ : ∃ l st, s' = s.withHidden l st := ⟨_, _, h.visible⟩
  cases i
  case ret =>
    obtain hzero | hpos := Nat.eq_zero_or_pos s.sp.toNat
    · cases (exec_ret_of_sp_eq_zero hzero).symm.trans ht
      exact ⟨_, exec_ret_of_sp_eq_zero hzero, h.appendReport _⟩
    obtain habove | hle := Nat.lt_or_ge 16 s.sp.toNat
    · cases (exec_ret_of_16_lt_sp habove).symm.trans ht
    · cases (exec_ret_of_sp_pos hpos hle).symm.trans ht
      exact ⟨_, exec_ret_of_sp_pos hpos hle, h.popToPc hpos⟩
  case call nnn =>
    obtain hroom | hfull | habove := Nat.lt_trichotomy s.sp.toNat 16
    · cases (exec_call_of_sp_lt_16 nnn hroom).symm.trans ht
      exact ⟨_, exec_call_of_sp_lt_16 nnn hroom, Alike.frame (h.push hroom s.pc) rfl rfl rfl⟩
    · cases (exec_call_of_sp_eq_16 nnn hfull).symm.trans ht
      exact ⟨_, exec_call_of_sp_eq_16 nnn hfull, h.appendReport _⟩
    · cases (exec_call_of_16_lt_sp nnn habove).symm.trans ht
  case jp nnn =>
    cases (exec_jp nnn s).symm.trans ht
    exact ⟨_, exec_jp nnn _, h.frame rfl rfl rfl⟩
  case ldI nnn =>
    cases (exec_ldI nnn s).symm.trans ht
    exact ⟨_, exec_ldI nnn _, h.frame rfl rfl rfl⟩
  case jpV0 nnn =>
    obtain hlt | hle := Nat.lt_or_ge (s.offsetTarget nnn) 0x1000
    · cases (exec_jpV0_of_lt hlt).symm.trans ht
      exact ⟨_, exec_jpV0_of_lt hlt, h.frame rfl rfl rfl⟩
    · cases (exec_jpV0_of_le hle).symm.trans ht
      exact ⟨_, exec_jpV0_of_le hle, h.appendReport _⟩
  case skp x =>
    obtain hlt | hle := Nat.lt_or_ge (s.reg x).toNat 16
    · cases (exec_skp_of_lt hlt).symm.trans ht
      exact ⟨_, exec_skp_of_lt (s := s.withHidden l st) hlt, h.skipIf _⟩
    · cases (exec_skp_of_le hle).symm.trans ht
      exact ⟨_, exec_skp_of_le hle, h.appendReport _⟩
  case sknp x =>
    obtain hlt | hle := Nat.lt_or_ge (s.reg x).toNat 16
    · cases (exec_sknp_of_lt hlt).symm.trans ht
      exact ⟨_, exec_sknp_of_lt (s := s.withHidden l st) hlt, h.skipIf _⟩
    · cases (exec_sknp_of_le hle).symm.trans ht
      exact ⟨_, exec_sknp_of_le hle, h.appendReport _⟩
  case ldVxK x =>
    by_cases hnone : s.pressedKeys = []
    · cases (exec_ldVxK_of_none x hnone).symm.trans ht
      exact ⟨_, exec_ldVxK_of_none x hnone, h.frame rfl rfl rfl⟩
    · cases (exec_ldVxK_of_some x hnone).symm.trans ht
      exact ⟨_, exec_ldVxK_of_some (s := s.withHidden l st) x hnone, h.frame rfl rfl rfl⟩
  case seImm | sneImm | seReg | sneReg => cases ht; exact ⟨_, rfl, h.skipIf _⟩
  case drw => cases ht; exact ⟨_, rfl, h.checkRead _ _ (h.frame rfl rfl rfl)⟩
  case ldB => cases ht; exact ⟨_, rfl, h.checkWrite _ _ (h.frame rfl rfl rfl)⟩
  case storeRegs x =>
    cases ht
    exact ⟨_, rfl, h.checkWrite _ _ (Alike.bumpIndex (s := s.storeAtIndex (s.regBlock x)) (h.frame rfl rfl rfl) x)⟩
  case loadRegs x =>
    cases ht
    exact ⟨_, rfl, h.checkRead _ _ (Alike.bumpIndex (s := s.loadBlock x) (h.frame rfl rfl rfl) x)⟩
  all_goals cases ht; exact ⟨_, rfl, h.frame rfl rfl rfl⟩

/-- So does a step. -/
theorem step_alike {keepLog keepStack : Prop} {s s' t : State} (h : Alike keepLog keepStack s s')
    (ht : step s = .next t) : ∃ t', step s' = .next t' ∧ Alike keepLog keepStack t t' := by
  obtain ⟨l, st, rfl⟩ : ∃ l st, s' = s.withHidden l st := ⟨_, _, h.visible⟩
  have hadvance : Alike keepLog keepStack s.advance (s.withHidden l st).advance := h.frame rfl rfl rfl
  obtain ⟨hhalted, hs⟩ | ⟨hrun, hfetch, hs⟩ | ⟨hrun, hfetch, i, hd, hs⟩ | ⟨hrun, hfetch, hd, hs⟩ := step_cases s <;>
    rw [hs] at ht
  case inl => cases ht; exact ⟨_, step_of_halted hhalted, h⟩
  case inr.inl =>
    cases ht
    exact ⟨_, step_of_fetchFails hrun (of_decide_eq_true hfetch), Alike.frame (h.appendReport _) rfl rfl rfl⟩
  case inr.inr.inl =>
    obtain ⟨t', ht', halike⟩ := exec_alike hadvance ht
    have hs' := step_of_decode_ok (s := s.withHidden l st) hrun (Nat.lt_of_not_le (of_decide_eq_false hfetch)) hd
    exact ⟨t', hs'.trans ht', halike⟩
  case inr.inr.inr =>
    cases ht
    exact ⟨_, step_of_decode_error hrun (Nat.lt_of_not_le (of_decide_eq_false hfetch)) hd,
      Alike.appendReport hadvance _⟩

/-- Settles O59: the two states are alike, and their stacks the same. -/
theorem programsCannotReadTheLog : Obligations.ProgramsCannotReadTheLog := by
  intro s t l ht
  have hstart : Alike False True s { s with log := l } := ⟨rfl, fun _ _ => rfl, False.elim, fun _ => rfl⟩
  obtain ⟨t', ht', halike⟩ := step_alike hstart ht
  have hframe : t' = { t with log := t'.log } := halike.visible.trans (by rw [halike.stack trivial]; rfl)
  exact ⟨t'.log, ht'.trans (congrArg _ hframe)⟩

/-- Settles O60: the two states are alike, and their logs the same. -/
theorem staleStackEntriesCannotBeObserved : Obligations.StaleStackEntriesCannotBeObserved := by
  intro s t st _ hbelow ht
  have hstart : Alike True False s { s with stack := st } := ⟨rfl, hbelow, fun _ => rfl, False.elim⟩
  obtain ⟨t', ht', halike⟩ := step_alike hstart ht
  have hframe : t' = { t with stack := t'.stack } := halike.visible.trans (by rw [halike.log trivial]; rfl)
  exact ⟨t'.stack, ht'.trans (congrArg _ hframe), halike.below⟩

end Sys2Proof.Machine
